-- ==== Sys2Proof/Word.lean ====
section
/-! DEFINITION. The machine word (spec `00_scope.md` R10, `20_memory.md` R62): 16 bits, the only unit of data and of address. -/

namespace Sys2Proof

/-- A word: 16 bits (R6, R10). Registers, memory words, addresses and messages are all words. -/
abbrev Word := BitVec 16

/-- The number of words of the address space (R6, R38, R60). -/
abbrev addressSpace : Nat := 65536

end Sys2Proof
end

