-- ==== Sys2Proof/Machine/Flags.lean ====
section
/-! DEFINITION. Every result and every EX value the instruction set computes (spec `42_arithmetic.md`, `43_logic_shift.md`). EX is
the machine's only status register and has no named bits (R27, R28). Values are computed over unbounded integers and reduced to a
word at the end (R11). -/

namespace Sys2Proof.Machine

/-- `u(v)` as an integer (R11). -/
def u (v : Word) : Int := Int.ofNat v.toNat

/-- `s(v)`: two's complement (R11). -/
def sgn (v : Word) : Int := v.toInt

/-- Reduction modulo 65536 (R11). -/
def word (t : Int) : Word := BitVec.ofInt 16 t

/-! ADD, ADX (R181, R190): `t` is the exact sum. -/

/-- `u(b) + u(a)` (R181). -/
def addSum (b a : Word) : Int := u b + u a

/-- `u(b) + u(a) + u(EX)` (R190). -/
def adxSum (b a ex : Word) : Int := u b + u a + u ex

/-- 1 on carry out, else 0; never 2 (R181, R190). -/
def carryEx (t : Int) : Word := if t > 65535 then 1 else 0

/-! SUB, SBX (R182, R191): `t` is the exact difference. -/

/-- `u(b) - u(a)` (R182). -/
def subDiff (b a : Word) : Int := u b - u a

/-- `u(b) - u(a) + u(EX)` (R191). -/
def sbxDiff (b a ex : Word) : Int := u b - u a + u ex

/-- 0xFFFF on borrow, else 0 (R182). -/
def borrowEx (t : Int) : Word := if t < 0 then 0xFFFF else 0

/-- 0xFFFF on underflow, 1 on overflow, else 0 (R191). -/
def sbxEx (t : Int) : Word := if t < 0 then 0xFFFF else if t > 65535 then 1 else 0

/-! MUL, MLI (R183, R184) -/

/-- `u(b) * u(a)` (R183). -/
def mulProduct (b a : Word) : Int := u b * u a

/-- `s(b) * s(a)` (R184). -/
def mliProduct (b a : Word) : Int := sgn b * sgn a

/-- Bits 31:16 of a product; `>>>` on integers is floor division by a power of two (R11, R184). -/
def highWord (t : Int) : Word := word (t >>> (16 : Nat))

/-! DIV, DVI, MOD, MDI (R185 to R188): division by zero gives zero and does not trap (R194). -/

/-- Unsigned quotient, floored (R185). -/
def divQuot (b a : Word) : Word := if a = 0 then 0 else word (u b / u a)

/-- The first 16 fraction bits of the quotient (R185). -/
def divEx (b a : Word) : Word := if a = 0 then 0 else word ((u b * 65536) / u a)

/-- Signed quotient, toward zero (R186). -/
def dviQuot (b a : Word) : Word := if a = 0 then 0 else word ((sgn b).tdiv (sgn a))

/-- `tdiv(s(b) * 65536, s(a)) mod 65536` (R186). -/
def dviEx (b a : Word) : Word := if a = 0 then 0 else word ((sgn b * 65536).tdiv (sgn a))

/-- Unsigned remainder (R187). -/
def modRem (b a : Word) : Word := if a = 0 then 0 else word (u b % u a)

/-- The remainder has the sign of the dividend `b` (R188). -/
def mdiRem (b a : Word) : Word := if a = 0 then 0 else word (sgn b - sgn a * (sgn b).tdiv (sgn a))

/-! SHR, ASR, SHL (R213 to R216): the amount is the whole word, not masked. -/

/-- `u(b) >> n` (R213). -/
def shrResult (b a : Word) : Word := word (u b >>> a.toNat)

/-- The bits shifted out to the right, left-justified, from the unsigned pattern: SHR and ASR alike (R213, R214). -/
def shiftOutRightEx (b a : Word) : Word := word ((u b * 65536) >>> a.toNat)

/-- `s(b) >> n`, floor division (R214). -/
def asrResult (b a : Word) : Word := word (sgn b >>> a.toNat)

/-- `u(b) << n` reduced (R215). -/
def shlResult (b a : Word) : Word := BitVec.ofNat 16 (b.toNat <<< a.toNat)

/-- Bits 31:16 of the unbounded shifted value (R215). -/
def shiftOutLeftEx (b a : Word) : Word := BitVec.ofNat 16 ((b.toNat <<< a.toNat) >>> 16)

/-! The eight conditions (R231 to R238). -/

/-- `(b & a) != 0` (R231). -/
def testIfb (b a : Word) : Bool := (b &&& a) != 0
/-- `(b & a) = 0` (R232). -/
def testIfc (b a : Word) : Bool := (b &&& a) == 0
/-- `b = a` (R233). -/
def testIfe (b a : Word) : Bool := b == a
/-- `b != a` (R234). -/
def testIfn (b a : Word) : Bool := b != a
/-- `u(b) > u(a)` (R235). -/
def testIfg (b a : Word) : Bool := u b > u a
/-- `s(b) > s(a)` (R236). -/
def testIfa (b a : Word) : Bool := sgn b > sgn a
/-- `u(b) < u(a)` (R237). -/
def testIfl (b a : Word) : Bool := u b < u a
/-- `s(b) < s(a)` (R238). -/
def testIfu (b a : Word) : Bool := sgn b < sgn a

end Sys2Proof.Machine
end

