-- ==== Sys2Proof/Syntax.lean ====
section
/-! DEFINITION. The instruction set as syntax: registers, operand descriptors, and one constructor of `Instr` per row of
`spec/opcode_table.json` (spec `30_encoding.md`). A next word that an operand consumes is part of the operand. -/

namespace Sys2Proof

/-- The eight general registers, in the order of their numbers 0..7 (R20). -/
inductive Reg where
  | a | b | c | x | y | z | i | j
  deriving DecidableEq, Repr

/-- The operand forms that the `a` and the `b` field share (R94, every value below 0x20 but 0x18). -/
inductive Operand where
  /-- 0x00..0x07: the register itself (R154). -/
  | reg (r : Reg)
  /-- 0x08..0x0f: memory at the register (R155). -/
  | regInd (r : Reg)
  /-- 0x10..0x17: memory at the register plus the next word (R156). -/
  | regOff (r : Reg) (n : Word)
  /-- 0x19, PEEK: memory at SP (R159). -/
  | peek
  /-- 0x1a, PICK n: memory at SP plus the next word (R160). -/
  | pick (n : Word)
  /-- 0x1b: the stack pointer (R161). -/
  | sp
  /-- 0x1c: the program counter (R161). -/
  | pc
  /-- 0x1d: the EX register (R161). -/
  | ex
  /-- 0x1e: memory at the next word (R162). -/
  | direct (n : Word)
  /-- 0x1f: the next word as a literal (R163). -/
  | lit (n : Word)
  deriving DecidableEq, Repr

/-- The source descriptor, the 6-bit `a` field (R94). -/
inductive SrcOperand where
  /-- A form shared with the `b` field. -/
  | com (o : Operand)
  /-- 0x18 in `a`: POP (R158). -/
  | pop
  /-- 0x20..0x3f: a short literal, here by its VALUE: 0xFFFF or 0..30 (R95, R164). -/
  | short (v : Word)
  deriving DecidableEq, Repr

/-- The destination descriptor, the 5-bit `b` field (R94). -/
inductive DstOperand where
  /-- A form shared with the `a` field. -/
  | com (o : Operand)
  /-- 0x18 in `b`: PUSH (R157). -/
  | push
  deriving DecidableEq, Repr

/-- One constructor per row of `spec/opcode_table.json`. Basic instructions (R96) take `b` then `a`, as the assembler writes them
(R100); special instructions (R97) take `a`. The reserved opcode values are rows of the table too (R98): their operands are
resolved, so they are kept. -/
inductive Instr where
  -- data movement and arithmetic (`42_arithmetic.md`)
  | set (b : DstOperand) (a : SrcOperand)
  | add (b : DstOperand) (a : SrcOperand)
  | sub (b : DstOperand) (a : SrcOperand)
  | mul (b : DstOperand) (a : SrcOperand)
  | mli (b : DstOperand) (a : SrcOperand)
  | div (b : DstOperand) (a : SrcOperand)
  | dvi (b : DstOperand) (a : SrcOperand)
  | mod (b : DstOperand) (a : SrcOperand)
  | mdi (b : DstOperand) (a : SrcOperand)
  -- logic and shifts (`43_logic_shift.md`)
  | and (b : DstOperand) (a : SrcOperand)
  | bor (b : DstOperand) (a : SrcOperand)
  | xor (b : DstOperand) (a : SrcOperand)
  | shr (b : DstOperand) (a : SrcOperand)
  | asr (b : DstOperand) (a : SrcOperand)
  | shl (b : DstOperand) (a : SrcOperand)
  -- conditionals (`44_conditional.md`)
  | ifb (b : DstOperand) (a : SrcOperand)
  | ifc (b : DstOperand) (a : SrcOperand)
  | ife (b : DstOperand) (a : SrcOperand)
  | ifn (b : DstOperand) (a : SrcOperand)
  | ifg (b : DstOperand) (a : SrcOperand)
  | ifa (b : DstOperand) (a : SrcOperand)
  | ifl (b : DstOperand) (a : SrcOperand)
  | ifu (b : DstOperand) (a : SrcOperand)
  -- multiword arithmetic and stepping stores (`42_arithmetic.md`)
  | adx (b : DstOperand) (a : SrcOperand)
  | sbx (b : DstOperand) (a : SrcOperand)
  | sti (b : DstOperand) (a : SrcOperand)
  | std (b : DstOperand) (a : SrcOperand)
  -- reserved basic opcodes (R262)
  | reservedBasic18 (b : DstOperand) (a : SrcOperand)
  | reservedBasic19 (b : DstOperand) (a : SrcOperand)
  | reservedBasic1c (b : DstOperand) (a : SrcOperand)
  | reservedBasic1d (b : DstOperand) (a : SrcOperand)
  -- special instructions (`45_special.md`)
  | jsr (a : SrcOperand)
  | int (a : SrcOperand)
  | iag (a : SrcOperand)
  | ias (a : SrcOperand)
  | rfi (a : SrcOperand)
  | iaq (a : SrcOperand)
  | hwn (a : SrcOperand)
  | hwq (a : SrcOperand)
  | hwi (a : SrcOperand)
  -- reserved special opcodes (R261)
  | reservedSpecial00 (a : SrcOperand)
  | reservedSpecial02 (a : SrcOperand)
  | reservedSpecial03 (a : SrcOperand)
  | reservedSpecial04 (a : SrcOperand)
  | reservedSpecial05 (a : SrcOperand)
  | reservedSpecial06 (a : SrcOperand)
  | reservedSpecial07 (a : SrcOperand)
  | reservedSpecial0d (a : SrcOperand)
  | reservedSpecial0e (a : SrcOperand)
  | reservedSpecial0f (a : SrcOperand)
  | reservedSpecial13 (a : SrcOperand)
  | reservedSpecial14 (a : SrcOperand)
  | reservedSpecial15 (a : SrcOperand)
  | reservedSpecial16 (a : SrcOperand)
  | reservedSpecial17 (a : SrcOperand)
  | reservedSpecial18 (a : SrcOperand)
  | reservedSpecial19 (a : SrcOperand)
  | reservedSpecial1a (a : SrcOperand)
  | reservedSpecial1b (a : SrcOperand)
  | reservedSpecial1c (a : SrcOperand)
  | reservedSpecial1d (a : SrcOperand)
  | reservedSpecial1e (a : SrcOperand)
  | reservedSpecial1f (a : SrcOperand)
  deriving DecidableEq, Repr

end Sys2Proof
end

