-- ==== Sys2Proof/WellFormed.lean ====
section
/-! DEFINITION. Well-formedness of an instruction. The types of `Syntax` already exclude all but one ill-formed term: a short
literal must be one of the 32 values its field can hold (R94, R95, R164). A literal as destination is legal (R98, R166). -/

namespace Sys2Proof

/-- The source operand of an instruction; every instruction has one. -/
def Instr.src : Instr → SrcOperand
  | .set _ a => a
  | .add _ a => a
  | .sub _ a => a
  | .mul _ a => a
  | .mli _ a => a
  | .div _ a => a
  | .dvi _ a => a
  | .mod _ a => a
  | .mdi _ a => a
  | .and _ a => a
  | .bor _ a => a
  | .xor _ a => a
  | .shr _ a => a
  | .asr _ a => a
  | .shl _ a => a
  | .ifb _ a => a
  | .ifc _ a => a
  | .ife _ a => a
  | .ifn _ a => a
  | .ifg _ a => a
  | .ifa _ a => a
  | .ifl _ a => a
  | .ifu _ a => a
  | .adx _ a => a
  | .sbx _ a => a
  | .sti _ a => a
  | .std _ a => a
  | .reservedBasic18 _ a => a
  | .reservedBasic19 _ a => a
  | .reservedBasic1c _ a => a
  | .reservedBasic1d _ a => a
  | .jsr a => a
  | .int a => a
  | .iag a => a
  | .ias a => a
  | .rfi a => a
  | .iaq a => a
  | .hwn a => a
  | .hwq a => a
  | .hwi a => a
  | .reservedSpecial00 a => a
  | .reservedSpecial02 a => a
  | .reservedSpecial03 a => a
  | .reservedSpecial04 a => a
  | .reservedSpecial05 a => a
  | .reservedSpecial06 a => a
  | .reservedSpecial07 a => a
  | .reservedSpecial0d a => a
  | .reservedSpecial0e a => a
  | .reservedSpecial0f a => a
  | .reservedSpecial13 a => a
  | .reservedSpecial14 a => a
  | .reservedSpecial15 a => a
  | .reservedSpecial16 a => a
  | .reservedSpecial17 a => a
  | .reservedSpecial18 a => a
  | .reservedSpecial19 a => a
  | .reservedSpecial1a a => a
  | .reservedSpecial1b a => a
  | .reservedSpecial1c a => a
  | .reservedSpecial1d a => a
  | .reservedSpecial1e a => a
  | .reservedSpecial1f a => a

/-- The check on a source operand: a short literal is 0xFFFF or 0..30 (R95). -/
def SrcOperand.wf : SrcOperand → Bool
  | .com _ => true
  | .pop => true
  | .short v => v == 0xFFFF || v.toNat ≤ 30

/-- The instruction has an encoding. -/
def Instr.wf (i : Instr) : Bool := i.src.wf

end Sys2Proof
end

