-- ==== Sys2Proof/Decode.lean ====
section
/-! DEFINITION. Decoding and encoding (spec `30_encoding.md` R90 to R98). Every 16-bit first word decodes: reserved opcode values
are rows of the table and decode to their own constructors (R98). The only rejection is a list of words too short for the
instruction its first word begins, and it has a name. -/

namespace Sys2Proof

/-- Field `a`, bits 15:10 of the first word (R91, R92). -/
def fieldA (w : Word) : BitVec 6 := w.extractLsb' 10 6

/-- Field `b` of a basic word, the special opcode of a special word: bits 9:5 (R91, R92). -/
def fieldB (w : Word) : BitVec 5 := w.extractLsb' 5 5

/-- The basic opcode, bits 4:0 of the first word; zero marks the special format (R91, R92). -/
def fieldO (w : Word) : BitVec 5 := w.extractLsb' 0 5

/-- `nwf(v)` of R93: how many next words (0 or 1) the operand field value `v` takes. -/
def nwf (v : Nat) : Nat :=
  if (0x10 ≤ v ∧ v ≤ 0x17) ∨ v = 0x1a ∨ v = 0x1e ∨ v = 0x1f then 1 else 0

/-- `len(w)` of R93: the length in words of the instruction whose first word is `w`, reserved encodings included. -/
def wordLength (w : Word) : Nat :=
  if fieldO w = 0 then 1 + nwf (fieldA w).toNat
  else 1 + nwf (fieldA w).toNat + nwf (fieldB w).toNat

/-- The conditional opcodes, bits 4:0 in 0x10..0x17 (R96, R239). -/
def isConditional (w : Word) : Bool :=
  0x10 ≤ (fieldO w).toNat && (fieldO w).toNat ≤ 0x17

/-- Register of a number 0..7 (R20). -/
def decodeReg (k : BitVec 3) : Reg :=
  match k.toNat with
  | 1 => .b
  | 2 => .c
  | 3 => .x
  | 4 => .y
  | 5 => .z
  | 6 => .i
  | 7 => .j
  | _ => .a   -- the only value left is 0

/-- The 32 field values below 0x20 (R94), with next word `n` where the form takes one. The two fields differ in 0x18 only
(R150): `stack` is what it means in this field. -/
def decodeField {α : Type} (stack : α) (com : Operand → α) (v : BitVec 5) (n : Word) : α :=
  let low := v.extractLsb' 0 3
  match (v.extractLsb' 3 2).toNat with
  | 1 => com (.regInd (decodeReg low))
  | 2 => com (.regOff (decodeReg low) n)
  | 3 =>
    match low.toNat with
    | 1 => com .peek
    | 2 => com (.pick n)
    | 3 => com .sp
    | 4 => com .pc
    | 5 => com .ex
    | 6 => com (.direct n)
    | 7 => com (.lit n)
    | _ => stack   -- the only value left is 0: field value 0x18
  | _ => com (.reg (decodeReg low))   -- the only value left is 0

/-- The `b` field (R94). -/
def decodeDst (v : BitVec 5) (n : Word) : DstOperand := decodeField .push .com v n

/-- The `a` field (R94): below 0x20 as the `b` field but for POP, from 0x20 a short literal of value `v - 0x21` (R95). -/
def decodeSrc (v : BitVec 6) (n : Word) : SrcOperand :=
  if v.toNat < 0x20 then decodeField .pop .com (v.setWidth 5) n
  else .short (BitVec.ofNat 16 v.toNat - 0x21)

/-- The special opcodes (R97). -/
def decodeSpecial (so : BitVec 5) (a : SrcOperand) : Instr :=
  match so.toNat with
  | 0x01 => .jsr a
  | 0x02 => .reservedSpecial02 a
  | 0x03 => .reservedSpecial03 a
  | 0x04 => .reservedSpecial04 a
  | 0x05 => .reservedSpecial05 a
  | 0x06 => .reservedSpecial06 a
  | 0x07 => .reservedSpecial07 a
  | 0x08 => .int a
  | 0x09 => .iag a
  | 0x0a => .ias a
  | 0x0b => .rfi a
  | 0x0c => .iaq a
  | 0x0d => .reservedSpecial0d a
  | 0x0e => .reservedSpecial0e a
  | 0x0f => .reservedSpecial0f a
  | 0x10 => .hwn a
  | 0x11 => .hwq a
  | 0x12 => .hwi a
  | 0x13 => .reservedSpecial13 a
  | 0x14 => .reservedSpecial14 a
  | 0x15 => .reservedSpecial15 a
  | 0x16 => .reservedSpecial16 a
  | 0x17 => .reservedSpecial17 a
  | 0x18 => .reservedSpecial18 a
  | 0x19 => .reservedSpecial19 a
  | 0x1a => .reservedSpecial1a a
  | 0x1b => .reservedSpecial1b a
  | 0x1c => .reservedSpecial1c a
  | 0x1d => .reservedSpecial1d a
  | 0x1e => .reservedSpecial1e a
  | 0x1f => .reservedSpecial1f a
  | _ => .reservedSpecial00 a   -- the only value left is 0x00

/-- The instruction whose first word is `w0` and whose next words, where it has any, are taken from `w1` and `w2` in this order:
`a`'s next word comes before `b`'s (R63, R151). A next word the instruction does not take is ignored. -/
def decode (w0 w1 w2 : Word) : Instr :=
  let a := decodeSrc (fieldA w0) w1
  let b := decodeDst (fieldB w0) (if nwf (fieldA w0).toNat = 0 then w1 else w2)
  match (fieldO w0).toNat with
  | 0x01 => .set b a
  | 0x02 => .add b a
  | 0x03 => .sub b a
  | 0x04 => .mul b a
  | 0x05 => .mli b a
  | 0x06 => .div b a
  | 0x07 => .dvi b a
  | 0x08 => .mod b a
  | 0x09 => .mdi b a
  | 0x0a => .and b a
  | 0x0b => .bor b a
  | 0x0c => .xor b a
  | 0x0d => .shr b a
  | 0x0e => .asr b a
  | 0x0f => .shl b a
  | 0x10 => .ifb b a
  | 0x11 => .ifc b a
  | 0x12 => .ife b a
  | 0x13 => .ifn b a
  | 0x14 => .ifg b a
  | 0x15 => .ifa b a
  | 0x16 => .ifl b a
  | 0x17 => .ifu b a
  | 0x18 => .reservedBasic18 b a
  | 0x19 => .reservedBasic19 b a
  | 0x1a => .adx b a
  | 0x1b => .sbx b a
  | 0x1c => .reservedBasic1c b a
  | 0x1d => .reservedBasic1d b a
  | 0x1e => .sti b a
  | 0x1f => .std b a
  | _ => decodeSpecial (fieldB w0) a   -- the only value left is 0x00: the special format (R92)

/-- Why a list of words is not an instruction. -/
inductive DecodeReject where
  /-- The list ends before the last next word the first word asks for. -/
  | truncated
  deriving DecidableEq, Repr

/-- Decode the instruction at the head of a list of words and answer it with the words after it (R90, R93). -/
def decodeList : List Word → Except DecodeReject (Instr × List Word)
  | [] => .error .truncated
  | w :: ws =>
    if (w :: ws).length < wordLength w then .error .truncated
    else .ok (decode w (ws.getD 0 0) (ws.getD 1 0), (w :: ws).drop (wordLength w))

/-- The words of a table word: word `k` is bits `16k + 15 .. 16k`; bits from `nbits` up are zero. Three words are the longest
instruction (R90). The machine has no bytes, so a word is stored as it stands (R62). -/
def tableWords (nbits w : Nat) : List Word :=
  let v := w % 2 ^ nbits
  [BitVec.ofNat 16 v, BitVec.ofNat 16 (v / 65536), BitVec.ofNat 16 (v / 4294967296)]

/-- The instruction the decoder reads from a word of `spec/opcode_table.json`. -/
def decodeTableWord (nbits w : Nat) : Option Instr :=
  match decodeList (tableWords nbits w) with
  | .ok (i, _) => some i
  | .error _ => none

/-! ### The encoder, from the same tables -/

/-- Register number (R20). -/
def encodeReg : Reg → Nat
  | .a => 0
  | .b => 1
  | .c => 2
  | .x => 3
  | .y => 4
  | .z => 5
  | .i => 6
  | .j => 7

/-- Field value of a shared form (R94). -/
def encodeOperand : Operand → Nat
  | .reg r => encodeReg r
  | .regInd r => 0x08 + encodeReg r
  | .regOff r _ => 0x10 + encodeReg r
  | .peek => 0x19
  | .pick _ => 0x1a
  | .sp => 0x1b
  | .pc => 0x1c
  | .ex => 0x1d
  | .direct _ => 0x1e
  | .lit _ => 0x1f

/-- Field value of a source operand (R94, R95). -/
def encodeSrc : SrcOperand → BitVec 6
  | .com o => BitVec.ofNat 6 (encodeOperand o)
  | .pop => 0x18
  | .short v => BitVec.ofNat 6 (v + 0x21).toNat

/-- Field value of a destination operand (R94). -/
def encodeDst : DstOperand → BitVec 5
  | .com o => BitVec.ofNat 5 (encodeOperand o)
  | .push => 0x18

/-- The next word of a shared form, if it takes one (R94). -/
def operandWords : Operand → List Word
  | .regOff _ n => [n]
  | .pick n => [n]
  | .direct n => [n]
  | .lit n => [n]
  | .reg _ => []
  | .regInd _ => []
  | .peek => []
  | .sp => []
  | .pc => []
  | .ex => []

/-- The next word of a source operand, if it takes one. -/
def srcWords : SrcOperand → List Word
  | .com o => operandWords o
  | .pop => []
  | .short _ => []

/-- The next word of a destination operand, if it takes one. -/
def dstWords : DstOperand → List Word
  | .com o => operandWords o
  | .push => []

/-- A first word from its three fields, `aaaaaabbbbbooooo` (R91, R92). -/
def firstWord (a : BitVec 6) (b o : BitVec 5) : Word := a ++ b ++ o

/-- First word of a basic instruction (R91). -/
def basicWord (o : BitVec 5) (b : DstOperand) (a : SrcOperand) : Word := firstWord (encodeSrc a) (encodeDst b) o

/-- First word of a special instruction (R92). -/
def specialWord (so : BitVec 5) (a : SrcOperand) : Word := firstWord (encodeSrc a) so 0

/-- The words of a basic instruction (R63, R91). -/
def encodeBasic (o : BitVec 5) (b : DstOperand) (a : SrcOperand) : List Word :=
  basicWord o b a :: (srcWords a ++ dstWords b)

/-- The words of a special instruction (R63, R92). -/
def encodeSpecial (so : BitVec 5) (a : SrcOperand) : List Word := specialWord so a :: srcWords a

/-- The words of an instruction, in the order they are stored (R63). -/
def encode : Instr → List Word
  | .set b a => encodeBasic 0x01 b a
  | .add b a => encodeBasic 0x02 b a
  | .sub b a => encodeBasic 0x03 b a
  | .mul b a => encodeBasic 0x04 b a
  | .mli b a => encodeBasic 0x05 b a
  | .div b a => encodeBasic 0x06 b a
  | .dvi b a => encodeBasic 0x07 b a
  | .mod b a => encodeBasic 0x08 b a
  | .mdi b a => encodeBasic 0x09 b a
  | .and b a => encodeBasic 0x0a b a
  | .bor b a => encodeBasic 0x0b b a
  | .xor b a => encodeBasic 0x0c b a
  | .shr b a => encodeBasic 0x0d b a
  | .asr b a => encodeBasic 0x0e b a
  | .shl b a => encodeBasic 0x0f b a
  | .ifb b a => encodeBasic 0x10 b a
  | .ifc b a => encodeBasic 0x11 b a
  | .ife b a => encodeBasic 0x12 b a
  | .ifn b a => encodeBasic 0x13 b a
  | .ifg b a => encodeBasic 0x14 b a
  | .ifa b a => encodeBasic 0x15 b a
  | .ifl b a => encodeBasic 0x16 b a
  | .ifu b a => encodeBasic 0x17 b a
  | .adx b a => encodeBasic 0x1a b a
  | .sbx b a => encodeBasic 0x1b b a
  | .sti b a => encodeBasic 0x1e b a
  | .std b a => encodeBasic 0x1f b a
  | .reservedBasic18 b a => encodeBasic 0x18 b a
  | .reservedBasic19 b a => encodeBasic 0x19 b a
  | .reservedBasic1c b a => encodeBasic 0x1c b a
  | .reservedBasic1d b a => encodeBasic 0x1d b a
  | .jsr a => encodeSpecial 0x01 a
  | .int a => encodeSpecial 0x08 a
  | .iag a => encodeSpecial 0x09 a
  | .ias a => encodeSpecial 0x0a a
  | .rfi a => encodeSpecial 0x0b a
  | .iaq a => encodeSpecial 0x0c a
  | .hwn a => encodeSpecial 0x10 a
  | .hwq a => encodeSpecial 0x11 a
  | .hwi a => encodeSpecial 0x12 a
  | .reservedSpecial00 a => encodeSpecial 0x00 a
  | .reservedSpecial02 a => encodeSpecial 0x02 a
  | .reservedSpecial03 a => encodeSpecial 0x03 a
  | .reservedSpecial04 a => encodeSpecial 0x04 a
  | .reservedSpecial05 a => encodeSpecial 0x05 a
  | .reservedSpecial06 a => encodeSpecial 0x06 a
  | .reservedSpecial07 a => encodeSpecial 0x07 a
  | .reservedSpecial0d a => encodeSpecial 0x0d a
  | .reservedSpecial0e a => encodeSpecial 0x0e a
  | .reservedSpecial0f a => encodeSpecial 0x0f a
  | .reservedSpecial13 a => encodeSpecial 0x13 a
  | .reservedSpecial14 a => encodeSpecial 0x14 a
  | .reservedSpecial15 a => encodeSpecial 0x15 a
  | .reservedSpecial16 a => encodeSpecial 0x16 a
  | .reservedSpecial17 a => encodeSpecial 0x17 a
  | .reservedSpecial18 a => encodeSpecial 0x18 a
  | .reservedSpecial19 a => encodeSpecial 0x19 a
  | .reservedSpecial1a a => encodeSpecial 0x1a a
  | .reservedSpecial1b a => encodeSpecial 0x1b a
  | .reservedSpecial1c a => encodeSpecial 0x1c a
  | .reservedSpecial1d a => encodeSpecial 0x1d a
  | .reservedSpecial1e a => encodeSpecial 0x1e a
  | .reservedSpecial1f a => encodeSpecial 0x1f a

end Sys2Proof
end

