-- ==== Sys2Proof/Machine/View.lean ====
section
/-! DEFINITION. Memory cells, the register file, and the view a device is handed during a call (spec `20_memory.md` R60,
`46_device_bus.md` R283). -/

namespace Sys2Proof.Machine

/-- A sparse store of words by address: (address, word) pairs with rising addresses and no zero word. The machine's smallest
addressable unit is the word (R60, R62), so a cell holds a word. -/
abbrev Cells := List (Nat × Word)

/-- What an address no cell names reads as: memory is "zero-initialized" (R38). -/
def unlistedWord : Word := 0

/-- The word at address `n`. -/
def Cells.read (m : Cells) (n : Nat) : Word :=
  match m with
  | [] => unlistedWord
  | (k, w) :: t => if n = k then w else Cells.read t n

/-- Put `v` at address `n`, keeping the addresses rising. -/
def Cells.insert (m : Cells) (n : Nat) (v : Word) : Cells :=
  match m with
  | [] => [(n, v)]
  | (k, w) :: t =>
    if n < k then (n, v) :: (k, w) :: t
    else if n = k then (n, v) :: t
    else (k, w) :: Cells.insert t n v

/-- Take out whatever stands at address `n`. -/
def Cells.erase (m : Cells) (n : Nat) : Cells :=
  match m with
  | [] => []
  | (k, w) :: t => if n = k then Cells.erase t n else (k, w) :: Cells.erase t n

/-- Store `v` at address `n`; storing what an unlisted address reads as removes the cell, so that equal contents are equal data. -/
def Cells.write (m : Cells) (n : Nat) (v : Word) : Cells :=
  if v = unlistedWord then Cells.erase m n else Cells.insert m n v

/-- The words at `n, n+1, …, n+len-1`. -/
def Cells.readBlock (m : Cells) (n len : Nat) : List Word := (List.range len).map fun i => Cells.read m (n + i)

/-- Store a list of words from address `n` upward. -/
def Cells.writeBlock (m : Cells) (n : Nat) : List Word → Cells
  | [] => m
  | w :: ws => Cells.writeBlock (Cells.write m n w) (n + 1) ws

/-- The canonical form over `bound` addresses: addresses strictly rising, below the bound, and no cell equal to what an unlisted
address reads as. -/
abbrev Cells.wf (bound : Nat) (m : Cells) : Prop :=
  m.Pairwise (fun c d => c.1 < d.1) ∧ ∀ c ∈ m, c.1 < bound ∧ c.2 ≠ unlistedWord

/-- Memory: 65536 words (R38, R60). -/
abbrev Memory := Cells

/-- Memory is in canonical form. -/
abbrev Memory.wf (m : Memory) : Prop := Cells.wf addressSpace m

/-- `MemRead(a, 1)` (R12). -/
def Memory.read (m : Memory) (a : Word) : Word := Cells.read m a.toNat

/-- `MemWrite(a, 1, v)` (R12). -/
def Memory.write (m : Memory) (a v : Word) : Memory := Cells.write m a.toNat v

/-- The eight general registers (R20). -/
structure Regs where
  a : Word
  b : Word
  c : Word
  x : Word
  y : Word
  z : Word
  i : Word
  j : Word
  deriving DecidableEq, Repr

/-- Read a general register (R12, R20). -/
def Regs.get (f : Regs) : Reg → Word
  | .a => f.a
  | .b => f.b
  | .c => f.c
  | .x => f.x
  | .y => f.y
  | .z => f.z
  | .i => f.i
  | .j => f.j

/-- Write a general register; none is hard-wired (R20). -/
def Regs.set (f : Regs) (r : Reg) (v : Word) : Regs :=
  match r with
  | .a => { f with a := v }
  | .b => { f with b := v }
  | .c => { f with c := v }
  | .x => { f with x := v }
  | .y => { f with y := v }
  | .z => { f with z := v }
  | .i => { f with i := v }
  | .j => { f with j := v }

/-- What a device is handed during `interrupt(view)`: the twelve registers and all of memory, readable and writable, and nothing
else (R283). -/
structure View where
  regs : Regs
  pc : Word
  sp : Word
  ex : Word
  ia : Word
  mem : Memory
  deriving DecidableEq, Repr

/-- One write a device makes through the view (R283): a register or a memory word. -/
inductive ViewWrite where
  | reg (r : Reg) (v : Word)
  | pc (v : Word)
  | sp (v : Word)
  | ex (v : Word)
  | ia (v : Word)
  | mem (a v : Word)
  deriving DecidableEq, Repr

/-- Make one write through the view. -/
def View.apply (v : View) : ViewWrite → View
  | .reg r w => { v with regs := v.regs.set r w }
  | .pc w => { v with pc := w }
  | .sp w => { v with sp := w }
  | .ex w => { v with ex := w }
  | .ia w => { v with ia := w }
  | .mem a w => { v with mem := v.mem.write a w }

end Sys2Proof.Machine
end

