-- ==== Sys2Proof/Config.lean ====
section
/-! DEFINITION. What an implementation fixes (spec `00_scope.md` R7) and the free values. The values the spec takes for the
parameters stand in `Sys2Proof/Machine/Params.lean`; what the spec leaves OPEN is an uninterpreted constant here. -/

namespace Sys2Proof

/-- A device's identity triple (R36, R281). -/
structure Identity where
  manufacturer : BitVec 32
  deviceId : BitVec 32
  version : BitVec 16
  deriving DecidableEq, Repr

/-- What `flash` does with more words than memory has (R7 `FLASH_OVERSIZE`, R130). -/
inductive OversizePolicy where
  | reject
  | truncate
  deriving DecidableEq, Repr

/-- The parameters of R7, one field each. -/
structure Config where
  /-- `QUEUE_CAP` (R6). -/
  queueCap : Nat
  /-- `SKIP_CHAIN` (D10, R239). -/
  skipChain : Bool
  /-- `MAX_DEVICES` (D23, R129). -/
  maxDevices : Nat
  /-- `FLASH_OVERSIZE` (D22, R130). -/
  flashOversize : OversizePolicy
  /-- `HWI_EXTRA_CYCLES` of the floppy controller (D18, R260). -/
  hwiExtraFloppy : Nat
  /-- `HWI_EXTRA_CYCLES` of the clock (D18, R260). -/
  hwiExtraClock : Nat
  /-- `HWI_EXTRA_CYCLES` of the display (D18, R260). -/
  hwiExtraDisplay : Nat
  /-- `CLOCK_SCALE` (D29, R332). -/
  clockScale : Nat
  /-- `FD_SECTOR_SIZE` (D26, R303). -/
  fdSectorSize : Nat
  /-- `FD_SECTOR_COUNT` (D26, R303). -/
  fdSectorCount : Nat
  /-- `FD_SECTORS_PER_TRACK` (D26, R303). -/
  fdSectorsPerTrack : Nat
  /-- `FD_SEEK_PER_TRACK` (D28, R312). -/
  fdSeekPerTrack : Nat
  /-- `ID_FLOPPY` (D31, R288). -/
  idFloppy : Identity
  /-- `ID_CLOCK` (D31, R288). -/
  idClock : Identity
  /-- `ID_DISPLAY` (D31, R288). -/
  idDisplay : Identity
  deriving DecidableEq, Repr

/-- The free value of `FD_SEEK_PER_TRACK`, which R7 marks "OPEN (named parameter, no default)": log entry 7. -/
opaque Config.openSeekPerTrack : Nat

/-- What a device that is none of the three reference devices answers to `interrupt(view)`: its interrupt message and its private
state after the call, the writes it makes through the view in order, and the messages it has to return in order (R282, R283, R285). -/
structure ExternalReply where
  msg : Word
  priv : List Word
  writes : List Machine.ViewWrite
  messages : List Word
  deriving DecidableEq, Repr, Inhabited

/-- `interrupt(view)` of the external device variant `kind` with interrupt message `msg` and private state `priv`: uninterpreted, log
entry 10. -/
opaque Config.externalInterrupt (kind : Nat) (msg : Word) (priv : List Word) (v : Machine.View) : ExternalReply

/-- `cycle()` of the external device variant `kind` with interrupt message `msg` and private state `priv`: the private state after it
and the messages it has to return; it has no view (R284). Uninterpreted, log entry 10. -/
opaque Config.externalCycle (kind : Nat) (msg : Word) (priv : List Word) : List Word × List Word

/-- `HWI_EXTRA_CYCLES` of the external device variant `kind` (R7, R260). Uninterpreted, log entry 10. -/
opaque Config.externalExtraCycles (kind : Nat) : Nat

end Sys2Proof
end

