-- ==== Sys2Proof/Machine/Params.lean ====
section
/-! DEFINITION. The values this spec takes for the parameters of R7 and R288. -/

namespace Sys2Proof.Machine

/-- The value taken for each parameter (R7, R288); `FD_SEEK_PER_TRACK` has none and stays a free value (D28). -/
def params : Config where
  queueCap := 256
  skipChain := true
  maxDevices := 65535
  flashOversize := .reject
  hwiExtraFloppy := 0
  hwiExtraClock := 0
  hwiExtraDisplay := 0
  clockScale := 1
  fdSectorSize := 512
  fdSectorCount := 1440
  fdSectorsPerTrack := 18
  fdSeekPerTrack := Config.openSeekPerTrack
  idFloppy := { manufacturer := 0x1EB37E91, deviceId := 0x4FD524C5, version := 0x000B }
  idClock := { manufacturer := 0x00000000, deviceId := 0x12D0B402, version := 0x0001 }
  idDisplay := { manufacturer := 0x1EB37E91, deviceId := 0x42BABF3C, version := 0x0003 }

end Sys2Proof.Machine
end

