-- ==== Sys2Proof/Machine/State.lean ====
section
/-! DEFINITION. The machine's state as plain data (spec `10_state.md`), the private state of the devices (R37), the outcomes of a
step that are not a next state, and the state after reset (R40). -/

namespace Sys2Proof.Machine

/-- `fd_state` (R300). -/
inductive FloppyState where
  | noMedia
  | ready
  | readyWriteProtected
  | busy
  deriving DecidableEq, Repr

/-- `fd_error` (R302). -/
inductive FloppyError where
  | none
  | busy
  | noMedia
  | writeProtected
  | eject
  | badSector
  | broken
  deriving DecidableEq, Repr

/-- A disk image: word `i` of sector `x` stands at index `x * FD_SECTOR_SIZE + i`; a word no cell names is 0 (R301, R303). -/
abbrev Image := Cells

/-- Private state of the floppy controller (R301). -/
structure Floppy where
  state : FloppyState
  error : FloppyError
  msg : Word
  image : Option Image
  track : Nat
  seekTime : Nat
  deriving DecidableEq, Repr

/-- Private state of the clock (R331). -/
structure Clock where
  period : Word
  cycles : Nat
  ticks : Word
  msg : Word
  deriving DecidableEq, Repr

/-- `dp_state` (R350). -/
inductive DisplayState where
  | noData
  | running
  | turning
  deriving DecidableEq, Repr

/-- `dp_error` (R350). -/
inductive DisplayError where
  | none
  | broken
  deriving DecidableEq, Repr

/-- Private state of the display (R351). -/
structure Display where
  state : DisplayState
  error : DisplayError
  deriving DecidableEq, Repr

/-- An attached device: a reference peripheral, or another variant of the open set R280 speaks of, known by its identity, a number
that names the variant, its interrupt message (R285) and the rest of its private state (log entry 10). -/
inductive Device where
  | floppy (f : Floppy)
  | clock (c : Clock)
  | display (d : Display)
  | external (id : Identity) (kind : Nat) (msg : Word) (priv : List Word)
  deriving DecidableEq, Repr

/-- What one `cycle()` call returns (R127). -/
inductive Status where
  | ok
  | decodeError (w addr : Word)
  | onFire
  deriving DecidableEq, Repr

/-- Why a step has no next state. -/
inductive Fault where
  /-- Raised by a conditional whose test fails when every instruction the skip passes is itself a conditional, round the whole
  memory: the loop of R239 does not end, so the call never returns. Safe: the model stops where the machine hangs (log entry 8). -/
  | skipNeverEnds
  deriving DecidableEq, Repr

/-- Why an instruction has no meaning. -/
inductive Refusal where
  /-- Raised by `exec` alone, for an instruction not modelled yet. Safe: the run stops. No arm raises it. -/
  | notModelled (mnemonic : String)
  deriving DecidableEq, Repr

/-- The whole state (R20 to R38, table R40). -/
structure State where
  /-- A, B, C, X, Y, Z, I, J (R20). -/
  regs : Regs
  /-- Program counter (R23). -/
  pc : Word
  /-- Stack pointer (R26). -/
  sp : Word
  /-- Overflow/extra (R27). -/
  ex : Word
  /-- Interrupt address (R29). -/
  ia : Word
  /-- Memory (R38). -/
  mem : Memory
  /-- Enable flag (R30). -/
  ien : Bool
  /-- Queueing flag (R31). -/
  iaq : Bool
  /-- Pending messages, the oldest first (R32). -/
  queue : List Word
  /-- The fatal bit (R33). -/
  onFire : Bool
  /-- Cycles still owed (R34). -/
  sleepCycles : Nat
  /-- Attached devices, index = attachment order (R35). -/
  devices : List Device
  /-- The status the last `cycle()` call returned (R127): an output of the machine, no architectural state (log entry 2). -/
  status : Status
  deriving DecidableEq, Repr

/-- Every general register 0 (R22). -/
def Regs.zero : Regs where
  a := 0
  b := 0
  c := 0
  x := 0
  y := 0
  z := 0
  i := 0
  j := 0

/-- The state after construction (R40, R400). -/
def State.reset : State where
  regs := Regs.zero
  pc := 0
  sp := 0
  ex := 0
  ia := 0
  mem := []
  ien := false
  iaq := false
  queue := []
  onFire := false
  sleepCycles := 0
  devices := []
  status := .ok

/-- A floppy controller at construction (R301). -/
def Floppy.fresh : Floppy where
  state := .noMedia
  error := .none
  msg := 0
  image := none
  track := 0
  seekTime := 0

/-- A clock at construction (R331). -/
def Clock.fresh : Clock where
  period := 0
  cycles := 0
  ticks := 0
  msg := 0

/-- A display at construction (R351). -/
def Display.fresh : Display where
  state := .noData
  error := .none

end Sys2Proof.Machine
end

