-- ==== Sys2Proof/Machine/Ops.lean ====
section
/-! DEFINITION. Named operations over registers, memory, the stack and the interrupt queue (spec `00_scope.md` R12), taking an
interrupt and returning from one (spec `60_exceptions.md`). -/

namespace Sys2Proof.Machine

/-! ### Reading and writing one field -/

/-- `R[i]` (R12). -/
def State.reg (s : State) (r : Reg) : Word := s.regs.get r

/-- `R[i] <- v` (R12). -/
def State.setReg (s : State) (r : Reg) (v : Word) : State := { s with regs := s.regs.set r v }

/-- `PC <- v`. -/
def State.setPc (s : State) (v : Word) : State := { s with pc := v }

/-- `SP <- v`. -/
def State.setSp (s : State) (v : Word) : State := { s with sp := v }

/-- `EX <- v`. -/
def State.setEx (s : State) (v : Word) : State := { s with ex := v }

/-- `IA <- v`. -/
def State.setIa (s : State) (v : Word) : State := { s with ia := v }

/-- Replace memory. -/
def State.setMem (s : State) (m : Memory) : State := { s with mem := m }

/-- `ien <- v`. -/
def State.setIen (s : State) (v : Bool) : State := { s with ien := v }

/-- `iaq <- v`. -/
def State.setIaq (s : State) (v : Bool) : State := { s with iaq := v }

/-- Replace the queue. -/
def State.setQueue (s : State) (q : List Word) : State := { s with queue := q }

/-- `on_fire <- v`. -/
def State.setOnFire (s : State) (v : Bool) : State := { s with onFire := v }

/-- `sleep_cycles <- n`. -/
def State.setSleep (s : State) (n : Nat) : State := { s with sleepCycles := n }

/-- Replace the device list. -/
def State.setDevices (s : State) (ds : List Device) : State := { s with devices := ds }

/-- Set the status the call returns (R127). -/
def State.setStatus (s : State) (v : Status) : State := { s with status := v }

/-! ### Memory and the stack -/

/-- `mem[a]` (R12). -/
def State.readMem (s : State) (a : Word) : Word := s.mem.read a

/-- `mem[a] <- v` (R12). -/
def State.writeMem (s : State) (a v : Word) : State := s.setMem (s.mem.write a v)

/-- `Push(v)` (R12, R26). -/
def State.push (s : State) (v : Word) : State := (s.setSp (s.sp - 1)).writeMem (s.sp - 1) v

/-- The word `Pop()` answers (R12, R26). -/
def State.top (s : State) : Word := s.readMem s.sp

/-- What `Pop()` does to the state (R12, R26). -/
def State.drop (s : State) : State := s.setSp (s.sp + 1)

/-! ### The interrupt queue -/

/-- `Enqueue(m)` (R363): nothing when on fire; on a full queue the CPU catches fire and the message is not stored (R368). -/
def State.enqueue (s : State) (m : Word) : State :=
  if s.onFire then s
  else if params.queueCap ≤ s.queue.length then s.setOnFire true
  else s.setQueue (s.queue ++ [m])

/-- `Enqueue` of each message of a list, in order (R285). -/
def State.enqueueAll (s : State) : List Word → State
  | [] => s
  | m :: ms => (s.enqueue m).enqueueAll ms

/-- Taking an interrupt, the machine's one exception entry (R365): message `m` has left the queue, `rest` stays. PC then A are
pushed, delivery is held off, PC goes to IA, A receives the message; nothing else changes. -/
def State.takeInterrupt (s : State) (m : Word) (rest : List Word) : State :=
  let t := (s.setQueue rest).setIaq true
  (((t.push s.pc).push (s.reg .a)).setPc s.ia).setReg .a m

/-- The delivery condition but for the queue (R364). -/
def State.canDeliver (s : State) : Bool := !s.onFire && s.ien && s.ia != 0 && !s.iaq

/-- Sub-step 4: deliver the head message if the condition holds (R125, R364). -/
def State.deliver (s : State) : State :=
  match s.queue with
  | [] => s
  | m :: rest => if s.canDeliver then s.takeInterrupt m rest else s

/-- Return from interrupt (R256, R366): clear the queueing flag, pop A, pop PC. -/
def State.returnFromInterrupt (s : State) : State :=
  let s1 := s.setIaq false
  let s2 := s1.drop.setReg .a s1.top
  s2.drop.setPc s2.top

/-! ### Fetch -/

/-- Store words at an address and the addresses after it, wrapping at the top (R24, R65). -/
def State.storeWords (s : State) (a : Word) : List Word → State
  | [] => s
  | w :: ws => (s.writeMem a w).storeWords (a + 1) ws

/-- Sub-step 2, fetch and decode (R122, R23, R24): the words at PC, PC + 1 and PC + 2, wrapping. Words beyond the instruction are
read without effect (R61) and ignored by `decode` (log entry 15). -/
def State.fetchInstr (s : State) : Instr := decode (s.readMem s.pc) (s.readMem (s.pc + 1)) (s.readMem (s.pc + 2))

/-! ### The view -/

/-- The view a device is handed (R283). -/
def State.view (s : State) : View where
  regs := s.regs
  pc := s.pc
  sp := s.sp
  ex := s.ex
  ia := s.ia
  mem := s.mem

/-- The state with the view's changes made in place (R283). -/
def State.withView (s : State) (v : View) : State :=
  { s with regs := v.regs, pc := v.pc, sp := v.sp, ex := v.ex, ia := v.ia, mem := v.mem }

end Sys2Proof.Machine
end

