-- ==== Sys2Proof/Machine/Operands.lean ====
section
/-! DEFINITION. Operand resolution (spec `41_operands.md`). Resolving a descriptor gives a location and may move PC and SP; it
reads and writes no operand value (R150). Operand a is resolved before operand b, and both before any value is read (R151). -/

namespace Sys2Proof.Machine

/-- A resolved operand (R150). -/
inductive Loc where
  | reg (r : Reg)
  | mem (a : Word)
  | sp
  | pc
  | ex
  | lit (v : Word)
  deriving DecidableEq, Repr

/-- `Read(loc)` (R152). -/
def State.readLoc (s : State) : Loc → Word
  | .reg r => s.reg r
  | .mem a => s.readMem a
  | .sp => s.sp
  | .pc => s.pc
  | .ex => s.ex
  | .lit v => v

/-- `Write(loc, v)` (R153); a write to a literal is dropped (R166). -/
def State.writeLoc (s : State) (l : Loc) (v : Word) : State :=
  match l with
  | .reg r => s.setReg r v
  | .mem a => s.writeMem a v
  | .sp => s.setSp v
  | .pc => s.setPc v
  | .ex => s.setEx v
  | .lit _ => s

/-- Next words a shared form consumes, which is also its cost in cycles (R165). -/
def operandCost : Operand → Nat
  | .regOff _ _ => 1
  | .pick _ => 1
  | .direct _ => 1
  | .lit _ => 1
  | .reg _ => 0
  | .regInd _ => 0
  | .peek => 0
  | .sp => 0
  | .pc => 0
  | .ex => 0

/-- `ca` (R124, R165). -/
def costA : SrcOperand → Nat
  | .com o => operandCost o
  | .pop => 0
  | .short _ => 0

/-- `cb` (R124, R165). -/
def costB : DstOperand → Nat
  | .com o => operandCost o
  | .push => 0

/-- Location of a shared form, registers read at resolution time (R154 to R156, R159 to R163). -/
def locOf (o : Operand) (s : State) : Loc :=
  match o with
  | .reg r => .reg r
  | .regInd r => .mem (s.reg r)
  | .regOff r n => .mem (s.reg r + n)
  | .peek => .mem s.sp
  | .pick n => .mem (s.sp + n)
  | .sp => .sp
  | .pc => .pc
  | .ex => .ex
  | .direct n => .mem n
  | .lit n => .lit n

/-- Side effect of a shared form: PC passes over the next word (R150, R12 `NextWord`). -/
def afterOperand (o : Operand) (s : State) : State := s.setPc (s.pc + BitVec.ofNat 16 (operandCost o))

/-- Location that `ResolveA` gives (R158, R164). -/
def locA (a : SrcOperand) (s : State) : Loc :=
  match a with
  | .com o => locOf o s
  | .pop => .mem s.sp
  | .short v => .lit v

/-- State after `ResolveA` (R158). -/
def afterA (a : SrcOperand) (s : State) : State :=
  match a with
  | .com o => afterOperand o s
  | .pop => s.setSp (s.sp + 1)
  | .short _ => s

/-- Location that `ResolveB` gives (R157). -/
def locB (b : DstOperand) (s : State) : Loc :=
  match b with
  | .com o => locOf o s
  | .push => .mem (s.sp - 1)

/-- State after `ResolveB` (R157). -/
def afterB (b : DstOperand) (s : State) : State :=
  match b with
  | .com o => afterOperand o s
  | .push => s.setSp (s.sp - 1)

/-! ### A whole instruction (R122, R151). `s` is the state with PC at the first word. -/

/-- The first word is consumed (R122). -/
def fetched (s : State) : State := s.setPc (s.pc + 1)

/-- `la`, the location of operand a. -/
def srcLoc (a : SrcOperand) (s : State) : Loc := locA a (fetched s)

/-- The state after operand a is resolved. -/
def afterSrc (a : SrcOperand) (s : State) : State := afterA a (fetched s)

/-- `lb`, the location of operand b, resolved after operand a. -/
def dstLoc (b : DstOperand) (a : SrcOperand) (s : State) : Loc := locB b (afterSrc a s)

/-- The state after both operands are resolved. -/
def resolved (b : DstOperand) (a : SrcOperand) (s : State) : State := afterB b (afterSrc a s)

/-- The value `a` of a basic instruction (R13, R151). -/
def srcVal (b : DstOperand) (a : SrcOperand) (s : State) : Word := (resolved b a s).readLoc (srcLoc a s)

/-- The value `b` of a basic instruction (R13, R151). -/
def dstVal (b : DstOperand) (a : SrcOperand) (s : State) : Word := (resolved b a s).readLoc (dstLoc b a s)

/-- The value `a` of a special instruction (R250). -/
def argVal (a : SrcOperand) (s : State) : Word := (afterSrc a s).readLoc (srcLoc a s)

end Sys2Proof.Machine
end

