-- ==== Sys2Proof/Machine/Arithmetic.lean ====
section
/-! DEFINITION. Data movement and integer arithmetic (spec `42_arithmetic.md`): SET, ADD, SUB, MUL, MLI, DIV, DVI, MOD, MDI, ADX,
SBX, STI, STD. -/

namespace Sys2Proof.Machine

/-- A basic instruction that writes `res` to its destination, then `ex` to EX where the opcode writes EX (R189), and costs `base`
plus its operands (R124). -/
def writeResult (base : Nat) (b : DstOperand) (a : SrcOperand) (s : State) (res : Word) (ex : Option Word) : State :=
  let t := (resolved b a s).writeLoc (dstLoc b a s) res
  (t.setEx (ex.getD t.ex)).setSleep (base + costA a + costB b - 1)

/-- SET (R180). -/
def execSet (b : DstOperand) (a : SrcOperand) (s : State) : Host.Outcome State Fault Refusal :=
  .next (writeResult 1 b a s (srcVal b a s) none)

/-- ADD (R181). -/
def execAdd (b : DstOperand) (a : SrcOperand) (s : State) : Host.Outcome State Fault Refusal :=
  let t := addSum (dstVal b a s) (srcVal b a s)
  .next (writeResult 2 b a s (word t) (some (carryEx t)))

/-- SUB (R182). -/
def execSub (b : DstOperand) (a : SrcOperand) (s : State) : Host.Outcome State Fault Refusal :=
  let t := subDiff (dstVal b a s) (srcVal b a s)
  .next (writeResult 2 b a s (word t) (some (borrowEx t)))

/-- MUL (R183). -/
def execMul (b : DstOperand) (a : SrcOperand) (s : State) : Host.Outcome State Fault Refusal :=
  let t := mulProduct (dstVal b a s) (srcVal b a s)
  .next (writeResult 2 b a s (word t) (some (highWord t)))

/-- MLI (R184). -/
def execMli (b : DstOperand) (a : SrcOperand) (s : State) : Host.Outcome State Fault Refusal :=
  let t := mliProduct (dstVal b a s) (srcVal b a s)
  .next (writeResult 2 b a s (word t) (some (highWord t)))

/-- DIV (R185). -/
def execDiv (b : DstOperand) (a : SrcOperand) (s : State) : Host.Outcome State Fault Refusal :=
  .next (writeResult 3 b a s (divQuot (dstVal b a s) (srcVal b a s)) (some (divEx (dstVal b a s) (srcVal b a s))))

/-- DVI (R186). -/
def execDvi (b : DstOperand) (a : SrcOperand) (s : State) : Host.Outcome State Fault Refusal :=
  .next (writeResult 3 b a s (dviQuot (dstVal b a s) (srcVal b a s)) (some (dviEx (dstVal b a s) (srcVal b a s))))

/-- MOD (R187). -/
def execMod (b : DstOperand) (a : SrcOperand) (s : State) : Host.Outcome State Fault Refusal :=
  .next (writeResult 3 b a s (modRem (dstVal b a s) (srcVal b a s)) none)

/-- MDI (R188). -/
def execMdi (b : DstOperand) (a : SrcOperand) (s : State) : Host.Outcome State Fault Refusal :=
  .next (writeResult 3 b a s (mdiRem (dstVal b a s) (srcVal b a s)) none)

/-- ADX (R190): EX is read with the operands, before any write. -/
def execAdx (b : DstOperand) (a : SrcOperand) (s : State) : Host.Outcome State Fault Refusal :=
  let t := adxSum (dstVal b a s) (srcVal b a s) (resolved b a s).ex
  .next (writeResult 3 b a s (word t) (some (carryEx t)))

/-- SBX (R191). -/
def execSbx (b : DstOperand) (a : SrcOperand) (s : State) : Host.Outcome State Fault Refusal :=
  let t := sbxDiff (dstVal b a s) (srcVal b a s) (resolved b a s).ex
  .next (writeResult 3 b a s (word t) (some (sbxEx t)))

/-- Add `d` to I and to J, wrapping (R192, R193). -/
def stepIJ (d : Word) (s : State) : State := (s.setReg .i (s.reg .i + d)).setReg .j (s.reg .j + d)

/-- STI (R192): the store, then I and J up by one. -/
def execSti (b : DstOperand) (a : SrcOperand) (s : State) : Host.Outcome State Fault Refusal :=
  .next (stepIJ 1 (writeResult 2 b a s (srcVal b a s) none))

/-- STD (R193): the store, then I and J down by one. -/
def execStd (b : DstOperand) (a : SrcOperand) (s : State) : Host.Outcome State Fault Refusal :=
  .next (stepIJ (-1) (writeResult 2 b a s (srcVal b a s) none))

end Sys2Proof.Machine
end

