-- ==== Sys2Proof/Machine/Conditional.lean ====
section
/-! DEFINITION. Conditional instructions and skipping (spec `44_conditional.md`). -/

namespace Sys2Proof.Machine

/-- `Skip()` (R239), at most `fuel` times round its loop: the address after the last skipped instruction and how many were
skipped. Skipped instructions are passed by their length only (R167). -/
def skipFrom (mem : Memory) : Nat → Word → Option (Word × Nat)
  | 0, _ => none
  | fuel + 1, pc =>
    let w := mem.read pc
    let next := pc + BitVec.ofNat 16 (wordLength w)
    if params.skipChain && isConditional w then
      match skipFrom mem fuel next with
      | none => none
      | some (pc', n) => some (pc', n + 1)
    else some (next, 1)

/-- `Skip()` (R239). Memory does not change while it runs, so a loop that has not ended after as many turns as there are addresses
has come back to an address it passed before and never ends: `none` (log entry 8). -/
def skip (s : State) : Option (Word × Nat) := skipFrom s.mem addressSpace s.pc

/-- The common rule of the family (R230): resolve, test, and skip when the test fails, at one cycle per instruction skipped (R240).
Nothing is written. -/
def conditional (test : Word → Word → Bool) (b : DstOperand) (a : SrcOperand) (s : State) : Host.Outcome State Fault Refusal :=
  let t := resolved b a s
  if test (dstVal b a s) (srcVal b a s) then .next (t.setSleep (2 + costA a + costB b - 1))
  else
    match skip t with
    | some (pc, n) => .next ((t.setPc pc).setSleep (2 + costA a + costB b + n - 1))
    | none => .fault .skipNeverEnds

/-- IFB (R231). -/
def execIfb (b : DstOperand) (a : SrcOperand) (s : State) : Host.Outcome State Fault Refusal := conditional testIfb b a s

/-- IFC (R232). -/
def execIfc (b : DstOperand) (a : SrcOperand) (s : State) : Host.Outcome State Fault Refusal := conditional testIfc b a s

/-- IFE (R233). -/
def execIfe (b : DstOperand) (a : SrcOperand) (s : State) : Host.Outcome State Fault Refusal := conditional testIfe b a s

/-- IFN (R234). -/
def execIfn (b : DstOperand) (a : SrcOperand) (s : State) : Host.Outcome State Fault Refusal := conditional testIfn b a s

/-- IFG (R235). -/
def execIfg (b : DstOperand) (a : SrcOperand) (s : State) : Host.Outcome State Fault Refusal := conditional testIfg b a s

/-- IFA (R236). -/
def execIfa (b : DstOperand) (a : SrcOperand) (s : State) : Host.Outcome State Fault Refusal := conditional testIfa b a s

/-- IFL (R237). -/
def execIfl (b : DstOperand) (a : SrcOperand) (s : State) : Host.Outcome State Fault Refusal := conditional testIfl b a s

/-- IFU (R238). -/
def execIfu (b : DstOperand) (a : SrcOperand) (s : State) : Host.Outcome State Fault Refusal := conditional testIfu b a s

end Sys2Proof.Machine
end

