-- ==== Sys2Proof/Machine/Logic.lean ====
section
/-! DEFINITION. Logic and shifts (spec `43_logic_shift.md`): AND, BOR, XOR, SHR, ASR, SHL. -/

namespace Sys2Proof.Machine

/-- AND (R210). -/
def execAnd (b : DstOperand) (a : SrcOperand) (s : State) : Host.Outcome State Fault Refusal :=
  .next (writeResult 1 b a s (dstVal b a s &&& srcVal b a s) none)

/-- BOR (R211). -/
def execBor (b : DstOperand) (a : SrcOperand) (s : State) : Host.Outcome State Fault Refusal :=
  .next (writeResult 1 b a s (dstVal b a s ||| srcVal b a s) none)

/-- XOR (R212). -/
def execXor (b : DstOperand) (a : SrcOperand) (s : State) : Host.Outcome State Fault Refusal :=
  .next (writeResult 1 b a s (dstVal b a s ^^^ srcVal b a s) none)

/-- SHR (R213). -/
def execShr (b : DstOperand) (a : SrcOperand) (s : State) : Host.Outcome State Fault Refusal :=
  .next (writeResult 1 b a s (shrResult (dstVal b a s) (srcVal b a s))
    (some (shiftOutRightEx (dstVal b a s) (srcVal b a s))))

/-- ASR (R214). -/
def execAsr (b : DstOperand) (a : SrcOperand) (s : State) : Host.Outcome State Fault Refusal :=
  .next (writeResult 1 b a s (asrResult (dstVal b a s) (srcVal b a s))
    (some (shiftOutRightEx (dstVal b a s) (srcVal b a s))))

/-- SHL (R215). -/
def execShl (b : DstOperand) (a : SrcOperand) (s : State) : Host.Outcome State Fault Refusal :=
  .next (writeResult 1 b a s (shlResult (dstVal b a s) (srcVal b a s))
    (some (shiftOutLeftEx (dstVal b a s) (srcVal b a s))))

end Sys2Proof.Machine
end

