-- ==== Sys2Proof/Machine/Floppy.lean ====
section
/-! DEFINITION. The floppy controller (spec `47_floppy.md`). -/

namespace Sys2Proof.Machine

/-- State codes (R300). -/
def floppyStateCode : FloppyState → Word
  | .noMedia => 0x0000
  | .ready => 0x0001
  | .readyWriteProtected => 0x0002
  | .busy => 0x0003

/-- Error codes (R302). -/
def floppyErrorCode : FloppyError → Word
  | .none => 0x0000
  | .busy => 0x0001
  | .noMedia => 0x0002
  | .writeProtected => 0x0003
  | .eject => 0x0004
  | .badSector => 0x0005
  | .broken => 0xFFFF

/-- How many words an image has (R303). -/
def imageSize : Nat := params.fdSectorCount * params.fdSectorSize

/-- The image is in canonical form and lies within the geometry (R301, R303). -/
abbrev Image.wf (m : Image) : Prop := Cells.wf imageSize m

/-- `SetStatus(state', error')` (R305): the new controller and the messages to return. -/
def floppySetStatus (f : Floppy) (st : FloppyState) (er : FloppyError) : Floppy × List Word :=
  ({ f with state := st, error := er },
    if (st ≠ f.state ∨ er ≠ f.error) ∧ f.msg ≠ 0 then [f.msg] else [])

/-- `InBounds(X, Y)` (R309), over integers without wrap. -/
def floppyInBounds (x y : Word) : Bool :=
  x.toNat < params.fdSectorCount && y.toNat + params.fdSectorSize ≤ addressSpace

/-- `Seek(X)` (R312): the plain absolute difference of tracks, times the open constant. -/
def floppySeek (f : Floppy) (x : Word) : Floppy :=
  let t := x.toNat / params.fdSectorsPerTrack
  { f with seekTime := ((t : Int) - (f.track : Int)).natAbs * params.fdSeekPerTrack, track := t }

/-- Copy sector `x` of an image to memory at `y` (R308). -/
def sectorToMem (img : Image) (x : Word) (m : Memory) (y : Word) : Memory :=
  Cells.writeBlock m y.toNat (Cells.readBlock img (x.toNat * params.fdSectorSize) params.fdSectorSize)

/-- Copy memory at `y` to sector `x` of an image (R310). -/
def memToSector (m : Memory) (y : Word) (img : Image) (x : Word) : Image :=
  Cells.writeBlock img (x.toNat * params.fdSectorSize) (Cells.readBlock m y.toNat params.fdSectorSize)

/-- Set register B of a view. -/
def View.setB (v : View) (w : Word) : View := { v with regs := v.regs.set .b w }

/-- Set register C of a view. -/
def View.setC (v : View) (w : Word) : View := { v with regs := v.regs.set .c w }

/-- A rejection (R308, R310): B is 0 and the error is latched through `SetStatus`. -/
def floppyReject (f : Floppy) (v : View) (er : FloppyError) : Floppy × View × List Word :=
  ((floppySetStatus f f.state er).1, v.setB 0, (floppySetStatus f f.state er).2)

/-- The error a request without ready media latches (R308, R310). -/
def notReadyError (f : Floppy) : FloppyError := if f.state = .noMedia then .noMedia else .busy

/-- A = 2, read sector (R308). -/
def floppyRead (f : Floppy) (v : View) : Floppy × View × List Word :=
  if f.state ≠ .ready ∧ f.state ≠ .readyWriteProtected then floppyReject f v (notReadyError f)
  else if !floppyInBounds v.regs.x v.regs.y then floppyReject f v .badSector
  else
    (floppySeek f v.regs.x,
      { v.setB 1 with mem := sectorToMem (f.image.getD []) v.regs.x v.mem v.regs.y }, [])

/-- A = 3, write sector (R310): the state check comes before the bounds check. -/
def floppyWrite (f : Floppy) (v : View) : Floppy × View × List Word :=
  if f.state = .readyWriteProtected then floppyReject f v .writeProtected
  else if f.state ≠ .ready then floppyReject f v (notReadyError f)
  else if !floppyInBounds v.regs.x v.regs.y then floppyReject f v .badSector
  else
    ({ floppySeek f v.regs.x with image := some (memToSector v.mem v.regs.y (f.image.getD []) v.regs.x) }, v.setB 1, [])

/-- `interrupt(view)` of the floppy controller (R306 to R311): the sub-command is in A. -/
def floppyInterrupt (f : Floppy) (v : View) : Floppy × View × List Word :=
  match v.regs.a.toNat with
  | 0 => ({ f with error := .none }, (v.setB (floppyStateCode f.state)).setC (floppyErrorCode f.error), [])
  | 1 => ({ f with msg := v.regs.x }, v, [])
  | 2 => floppyRead f v
  | 3 => floppyWrite f v
  | _ => (f, v, [])

/-- `cycle()` of the floppy controller: nothing (R314). -/
def floppyCycle (f : Floppy) : Floppy × List Word := (f, [])

/-- Host action `insert` (R304): allowed in NO_MEDIA only, and only with an image of the geometry (log entry 14). -/
def floppyInsert (f : Floppy) (img : Image) (writeProtected : Bool) : Option (Floppy × List Word) :=
  if f.state = .noMedia ∧ Image.wf img then
    some (floppySetStatus { f with image := some img } (if writeProtected then .readyWriteProtected else .ready) f.error)
  else none

/-- Host action `eject` (R304): allowed in any other state; the image is handed back. -/
def floppyEject (f : Floppy) : Option (Floppy × List Word × Option Image) :=
  if f.state = .noMedia then none
  else some ((floppySetStatus { f with image := none } .noMedia f.error).1,
    (floppySetStatus { f with image := none } .noMedia f.error).2, f.image)

end Sys2Proof.Machine
end

