-- ==== Sys2Proof/Machine/Clock.lean ====
section
/-! DEFINITION. The clock (spec `48_clock.md`) and the display (spec `49_display.md`). -/

namespace Sys2Proof.Machine

/-- `interrupt(view)` of the clock (R333 to R336). -/
def clockInterrupt (c : Clock) (v : View) : Clock × View × List Word :=
  match v.regs.a.toNat with
  | 0 => ({ c with period := v.regs.x, cycles := 0, ticks := 0 }, v, [])
  | 1 => ({ c with ticks := 0 }, v.setC c.ticks, [])
  | 2 => ({ c with msg := v.regs.x }, v, [])
  | _ => (c, v, [])

/-- `cycle()` of the clock (R332, R337). -/
def clockCycle (c : Clock) : Clock × List Word :=
  if c.period = 0 then (c, [])
  else if c.cycles + 1 < c.period.toNat * params.clockScale then ({ c with cycles := c.cycles + 1 }, [])
  else ({ c with cycles := 0, ticks := c.ticks + 1 }, if c.msg ≠ 0 then [c.msg] else [])

/-- State codes (R350). -/
def displayStateCode : DisplayState → Word
  | .noData => 0x0000
  | .running => 0x0001
  | .turning => 0x0002

/-- Error codes (R350). -/
def displayErrorCode : DisplayError → Word
  | .none => 0x0000
  | .broken => 0xFFFF

/-- `interrupt(view)` of the display (R352, R353): poll, and nothing else. -/
def displayInterrupt (d : Display) (v : View) : Display × View × List Word :=
  match v.regs.a.toNat with
  | 0 => ({ d with error := .none }, (v.setB (displayStateCode d.state)).setC (displayErrorCode d.error), [])
  | _ => (d, v, [])

/-- `cycle()` of the display: nothing observable (R354). -/
def displayCycle (d : Display) : Display × List Word := (d, [])

end Sys2Proof.Machine
end

