-- ==== Sys2Proof/Machine/Bus.lean ====
section
/-! DEFINITION. The device bus and the device contract (spec `46_device_bus.md`). -/

namespace Sys2Proof.Machine

/-- Identity, constant for the life of a device (R281, R288). -/
def deviceIdentity : Device → Identity
  | .floppy _ => params.idFloppy
  | .clock _ => params.idClock
  | .display _ => params.idDisplay
  | .external id _ _ _ => id

/-- `HWI_EXTRA_CYCLES(dev)` (R7, R260). -/
def deviceExtraCycles : Device → Nat
  | .floppy _ => params.hwiExtraFloppy
  | .clock _ => params.hwiExtraClock
  | .display _ => params.hwiExtraDisplay
  | .external _ kind _ _ => Config.externalExtraCycles kind

/-- What reaches the CPU of the messages a device with interrupt message `msg` has to return: a device whose message is zero returns the
empty list always (R285). -/
def raised (msg : Word) (msgs : List Word) : List Word := if msg = 0 then [] else msgs

/-- `interrupt(view)` (R282): the device after the call, the view after the call, the messages returned (R285). The message
that counts for an external device is the one the call leaves it with (log entry 10). -/
def deviceInterrupt (d : Device) (v : View) : Device × View × List Word :=
  match d with
  | .floppy f => (.floppy (floppyInterrupt f v).1, (floppyInterrupt f v).2.1, (floppyInterrupt f v).2.2)
  | .clock c => (.clock (clockInterrupt c v).1, (clockInterrupt c v).2.1, (clockInterrupt c v).2.2)
  | .display p => (.display (displayInterrupt p v).1, (displayInterrupt p v).2.1, (displayInterrupt p v).2.2)
  | .external id kind msg priv =>
    let r := Config.externalInterrupt kind msg priv v
    (.external id kind r.msg r.priv, r.writes.foldl View.apply v, raised r.msg r.messages)

/-- `cycle()` of a device (R284): the device after the call and the messages returned (R285). It has no view, and
it leaves an external device's message alone: only the configuration sub-command sets that (R285). -/
def deviceCycle (d : Device) : Device × List Word :=
  match d with
  | .floppy f => (.floppy (floppyCycle f).1, (floppyCycle f).2)
  | .clock c => (.clock (clockCycle c).1, (clockCycle c).2)
  | .display p => (.display (displayCycle p).1, (displayCycle p).2)
  | .external id kind msg priv =>
    let r := Config.externalCycle kind msg priv
    (.external id kind msg r.1, raised msg r.2)

/-- Call device `n`'s `interrupt` with the live registers and memory as the view, then enqueue what it returns (R260, R282, R285).
An index no device has changes nothing (R260). -/
def callDevice (n : Nat) (s : State) : State :=
  match s.devices[n]? with
  | none => s
  | some d =>
    let r := deviceInterrupt d s.view
    ((s.withView r.2.1).setDevices (s.devices.set n r.1)).enqueueAll r.2.2

/-- Call device `n`'s `cycle()` and enqueue what it returns; nothing is started once the CPU is on fire (R126, R128). -/
def cycleDevice (s : State) (n : Nat) : State :=
  if s.onFire then s
  else
    match s.devices[n]? with
    | none => s
    | some d => (s.setDevices (s.devices.set n (deviceCycle d).1)).enqueueAll (deviceCycle d).2

/-- Sub-step 5: every device, in attachment order (R126). -/
def cycleDevices (s : State) : State := (List.range s.devices.length).foldl cycleDevice s

end Sys2Proof.Machine
end

