-- ==== Sys2Proof/Machine/Special.lean ====
section
/-! DEFINITION. Special instructions (spec `45_special.md`): JSR, INT, IAG, IAS, RFI, IAQ, HWN, HWQ, HWI. One operand, resolved with
its side effects; the total cost is base plus operand plus, for HWI, the device's extra (R250). None writes EX. -/

namespace Sys2Proof.Machine

/-- The end of a special instruction: the effect `t` and the cost (R123, R124). -/
def special (cost : Nat) (a : SrcOperand) (t : State) : Host.Outcome State Fault Refusal :=
  .next (t.setSleep (cost + costA a - 1))

/-- JSR (R251): a is read before the push. -/
def execJsr (a : SrcOperand) (s : State) : Host.Outcome State Fault Refusal :=
  special 3 a (((afterSrc a s).push (afterSrc a s).pc).setPc (argVal a s))

/-- INT (R252). -/
def execInt (a : SrcOperand) (s : State) : Host.Outcome State Fault Refusal :=
  special 4 a ((afterSrc a s).enqueue (argVal a s))

/-- IAG (R254). -/
def execIag (a : SrcOperand) (s : State) : Host.Outcome State Fault Refusal :=
  special 1 a ((afterSrc a s).writeLoc (srcLoc a s) (afterSrc a s).ia)

/-- IAS (R255). -/
def execIas (a : SrcOperand) (s : State) : Host.Outcome State Fault Refusal :=
  special 1 a (((afterSrc a s).setIa (argVal a s)).setIen (argVal a s != 0))

/-- RFI (R256): the operand's side effects happen, its value is ignored. -/
def execRfi (a : SrcOperand) (s : State) : Host.Outcome State Fault Refusal :=
  special 3 a (afterSrc a s).returnFromInterrupt

/-- IAQ (R257). -/
def execIaq (a : SrcOperand) (s : State) : Host.Outcome State Fault Refusal :=
  special 2 a ((afterSrc a s).setIaq (argVal a s != 0))

/-- HWN (R258). -/
def execHwn (a : SrcOperand) (s : State) : Host.Outcome State Fault Refusal :=
  special 2 a ((afterSrc a s).writeLoc (srcLoc a s) (BitVec.ofNat 16 s.devices.length))

/-- The identity HWQ delivers for index `n`; zeros where no device has that index (R259). -/
def identityAt (s : State) (n : Nat) : Identity :=
  match s.devices[n]? with
  | some d => deviceIdentity d
  | none => { manufacturer := 0, deviceId := 0, version := 0 }

/-- HWQ's register writes (R63, R259): low word first. -/
def deliverIdentity (id : Identity) (s : State) : State :=
  ((((s.setReg .a (id.deviceId.extractLsb' 0 16)).setReg .b (id.deviceId.extractLsb' 16 16)).setReg .c id.version).setReg .x
    (id.manufacturer.extractLsb' 0 16)).setReg .y (id.manufacturer.extractLsb' 16 16)

/-- HWQ (R259): the operand is read before the registers are written. -/
def execHwq (a : SrcOperand) (s : State) : Host.Outcome State Fault Refusal :=
  special 4 a (deliverIdentity (identityAt s (argVal a s).toNat) (afterSrc a s))

/-- `HWI_EXTRA_CYCLES` of the device with index `n`, 0 where there is none (R260). -/
def extraCyclesAt (s : State) (n : Nat) : Nat :=
  match s.devices[n]? with
  | some d => deviceExtraCycles d
  | none => 0

/-- HWI (R260). -/
def execHwi (a : SrcOperand) (s : State) : Host.Outcome State Fault Refusal :=
  special (4 + extraCyclesAt s (argVal a s).toNat) a (callDevice (argVal a s).toNat (afterSrc a s))

end Sys2Proof.Machine
end

