-- ==== Sys2Proof/Machine/Reserved.lean ====
section
/-! DEFINITION. Reserved encodings (spec `45_special.md` R261, R262, `60_exceptions.md` R372): the operands have been resolved with
their side effects, nothing else changes, the status of the call is `DecodeError(w, addr)` with the word and the address it was
fetched from, and execution goes on. The error is a status, not a stop (log entry 4). -/

namespace Sys2Proof.Machine

/-- A reserved basic opcode (R262). -/
def reservedBasic (o : BitVec 5) (b : DstOperand) (a : SrcOperand) (s : State) : Host.Outcome State Fault Refusal :=
  .next (((resolved b a s).setStatus (.decodeError (basicWord o b a) s.pc)).setSleep (1 + costA a + costB b - 1))

/-- A reserved special opcode (R261). -/
def reservedSpecial (so : BitVec 5) (a : SrcOperand) (s : State) : Host.Outcome State Fault Refusal :=
  special 1 a ((afterSrc a s).setStatus (.decodeError (specialWord so a) s.pc))

/-- RESERVED_BASIC_0x18 (R262). -/
def execReservedBasic18 (b : DstOperand) (a : SrcOperand) (s : State) : Host.Outcome State Fault Refusal := reservedBasic 0x18 b a s

/-- RESERVED_BASIC_0x19 (R262). -/
def execReservedBasic19 (b : DstOperand) (a : SrcOperand) (s : State) : Host.Outcome State Fault Refusal := reservedBasic 0x19 b a s

/-- RESERVED_BASIC_0x1C (R262). -/
def execReservedBasic1c (b : DstOperand) (a : SrcOperand) (s : State) : Host.Outcome State Fault Refusal := reservedBasic 0x1c b a s

/-- RESERVED_BASIC_0x1D (R262). -/
def execReservedBasic1d (b : DstOperand) (a : SrcOperand) (s : State) : Host.Outcome State Fault Refusal := reservedBasic 0x1d b a s

/-- RESERVED_SPECIAL_0x00 (R261). -/
def execReservedSpecial00 (a : SrcOperand) (s : State) : Host.Outcome State Fault Refusal := reservedSpecial 0x00 a s

/-- RESERVED_SPECIAL_0x02 (R261). -/
def execReservedSpecial02 (a : SrcOperand) (s : State) : Host.Outcome State Fault Refusal := reservedSpecial 0x02 a s

/-- RESERVED_SPECIAL_0x03 (R261). -/
def execReservedSpecial03 (a : SrcOperand) (s : State) : Host.Outcome State Fault Refusal := reservedSpecial 0x03 a s

/-- RESERVED_SPECIAL_0x04 (R261). -/
def execReservedSpecial04 (a : SrcOperand) (s : State) : Host.Outcome State Fault Refusal := reservedSpecial 0x04 a s

/-- RESERVED_SPECIAL_0x05 (R261). -/
def execReservedSpecial05 (a : SrcOperand) (s : State) : Host.Outcome State Fault Refusal := reservedSpecial 0x05 a s

/-- RESERVED_SPECIAL_0x06 (R261). -/
def execReservedSpecial06 (a : SrcOperand) (s : State) : Host.Outcome State Fault Refusal := reservedSpecial 0x06 a s

/-- RESERVED_SPECIAL_0x07 (R261). -/
def execReservedSpecial07 (a : SrcOperand) (s : State) : Host.Outcome State Fault Refusal := reservedSpecial 0x07 a s

/-- RESERVED_SPECIAL_0x0D (R261). -/
def execReservedSpecial0d (a : SrcOperand) (s : State) : Host.Outcome State Fault Refusal := reservedSpecial 0x0d a s

/-- RESERVED_SPECIAL_0x0E (R261). -/
def execReservedSpecial0e (a : SrcOperand) (s : State) : Host.Outcome State Fault Refusal := reservedSpecial 0x0e a s

/-- RESERVED_SPECIAL_0x0F (R261). -/
def execReservedSpecial0f (a : SrcOperand) (s : State) : Host.Outcome State Fault Refusal := reservedSpecial 0x0f a s

/-- RESERVED_SPECIAL_0x13 (R261). -/
def execReservedSpecial13 (a : SrcOperand) (s : State) : Host.Outcome State Fault Refusal := reservedSpecial 0x13 a s

/-- RESERVED_SPECIAL_0x14 (R261). -/
def execReservedSpecial14 (a : SrcOperand) (s : State) : Host.Outcome State Fault Refusal := reservedSpecial 0x14 a s

/-- RESERVED_SPECIAL_0x15 (R261). -/
def execReservedSpecial15 (a : SrcOperand) (s : State) : Host.Outcome State Fault Refusal := reservedSpecial 0x15 a s

/-- RESERVED_SPECIAL_0x16 (R261). -/
def execReservedSpecial16 (a : SrcOperand) (s : State) : Host.Outcome State Fault Refusal := reservedSpecial 0x16 a s

/-- RESERVED_SPECIAL_0x17 (R261). -/
def execReservedSpecial17 (a : SrcOperand) (s : State) : Host.Outcome State Fault Refusal := reservedSpecial 0x17 a s

/-- RESERVED_SPECIAL_0x18 (R261). -/
def execReservedSpecial18 (a : SrcOperand) (s : State) : Host.Outcome State Fault Refusal := reservedSpecial 0x18 a s

/-- RESERVED_SPECIAL_0x19 (R261). -/
def execReservedSpecial19 (a : SrcOperand) (s : State) : Host.Outcome State Fault Refusal := reservedSpecial 0x19 a s

/-- RESERVED_SPECIAL_0x1A (R261). -/
def execReservedSpecial1a (a : SrcOperand) (s : State) : Host.Outcome State Fault Refusal := reservedSpecial 0x1a a s

/-- RESERVED_SPECIAL_0x1B (R261). -/
def execReservedSpecial1b (a : SrcOperand) (s : State) : Host.Outcome State Fault Refusal := reservedSpecial 0x1b a s

/-- RESERVED_SPECIAL_0x1C (R261). -/
def execReservedSpecial1c (a : SrcOperand) (s : State) : Host.Outcome State Fault Refusal := reservedSpecial 0x1c a s

/-- RESERVED_SPECIAL_0x1D (R261). -/
def execReservedSpecial1d (a : SrcOperand) (s : State) : Host.Outcome State Fault Refusal := reservedSpecial 0x1d a s

/-- RESERVED_SPECIAL_0x1E (R261). -/
def execReservedSpecial1e (a : SrcOperand) (s : State) : Host.Outcome State Fault Refusal := reservedSpecial 0x1e a s

/-- RESERVED_SPECIAL_0x1F (R261). -/
def execReservedSpecial1f (a : SrcOperand) (s : State) : Host.Outcome State Fault Refusal := reservedSpecial 0x1f a s

end Sys2Proof.Machine
end

