-- ==== Sys2Proof/Machine/Cycle.lean ====
section
/-! DEFINITION. The rest of `cycle()` around an executed instruction (spec `40_execution_cycle.md` R121, R125 to R128). -/

namespace Sys2Proof.Machine

/-- The status of the call that ends in this state (R127): `OnFire` has priority. -/
def settleStatus (s : State) : State := if s.onFire then s.setStatus .onFire else s

/-- Sub-steps 4 and 5 and the status (R125 to R128). Delivery and every device call are skipped once the CPU is on fire. -/
def finishCycle (s : State) : State := settleStatus (cycleDevices s.deliver)

/-- A call that finds owed cycles: one is paid, nothing is decoded, sub-steps 4 and 5 are carried out (R121). -/
def sleepCycle (s : State) : State := finishCycle (s.setSleep (s.sleepCycles - 1))

/-- A call that decodes: sub-steps 2 and 3, then 4 and 5 (R122 to R126). -/
def executeCycle (s : State) : Host.Outcome State Fault Refusal :=
  match exec s.fetchInstr s with
  | .next t => .next (finishCycle t)
  | .fault r => .fault r
  | .refused r => .refused r

/-- One `cycle()` call (R120 to R127). On fire it changes nothing but the status it returns (R120); otherwise the status starts as
`Ok` (R372). -/
def cycle (s : State) : Host.Outcome State Fault Refusal :=
  if s.onFire then .next (s.setStatus .onFire)
  else if s.sleepCycles = 0 then executeCycle (s.setStatus .ok)
  else .next (sleepCycle (s.setStatus .ok))

end Sys2Proof.Machine
end

