-- ==== Sys2Proof/Machine/Step.lean ====
section
/-! DEFINITION. One step of the machine: the host operation `cycle()` (spec `40_execution_cycle.md` R120 to R127). -/

namespace Sys2Proof.Machine

/-- One `cycle()` call. -/
def step (s : State) : Host.Outcome State Fault Refusal := cycle s

/-- `s` with the words of the table word `w` stored where the next step fetches: at PC, PC + 1, PC + 2. A step fetches only when no
cycle is owed and the CPU is not on fire, so these two are cleared. -/
def State.withFetchWord (s : State) (nbits w : Nat) : State :=
  ((s.storeWords s.pc (tableWords nbits w)).setSleep 0).setOnFire false

end Sys2Proof.Machine
end

