-- ==== Sys2Proof/Machine/HostOps.lean ====
section
/-! DEFINITION. The host's operations other than `cycle()` (spec `40_execution_cycle.md` R129 to R133, `47_floppy.md` R304). They are
made between `cycle()` calls only (R132) and are no part of `step`. -/

namespace Sys2Proof.Machine

/-- Which device the host creates (R289): a reference device, or another variant of the open set of R280 with its identity, the number
that names the variant and the private state that variant begins with (log entry 10). -/
inductive NewDevice where
  | floppy
  | clock
  | display
  | external (id : Identity) (kind : Nat) (priv : List Word)
  deriving DecidableEq, Repr

/-- The device as created, in its own initial state (R289: R301, R331, R351) and with every message 0 (R403). -/
def NewDevice.create : NewDevice → Device
  | .floppy => .floppy Floppy.fresh
  | .clock => .clock Clock.fresh
  | .display => .display Display.fresh
  | .external id kind priv => .external id kind 0 priv

/-- A host operation. -/
inductive HostOp where
  /-- `attach_device(device)` (R129) of a device just created (R289, log entry 17). -/
  | attach (d : NewDevice)
  /-- `flash(words)` (R130). -/
  | flash (ws : List Word)
  /-- `reset()` (R131). -/
  | reset
  /-- `interrupt(message)` (R132). -/
  | interrupt (m : Word)
  /-- `insert(image, write_protected)` on the floppy controller with index `n` (R304). -/
  | insert (n : Nat) (img : Image) (writeProtected : Bool)
  /-- `eject()` on the floppy controller with index `n` (R304). -/
  | eject (n : Nat)
  /-- A direct call of device `n`'s `interrupt` through the attached reference, the registers of the view first set as listed (R129,
  R282; log entry 12). -/
  | callDevice (n : Nat) (args : List (Reg × Word))
  deriving DecidableEq, Repr

/-- What a host operation answers. -/
inductive HostReply where
  /-- Done. -/
  | done
  /-- Refused or rejected, nothing changed (R129, R130, R304). -/
  | refused
  /-- The index of the newly attached device (R129). -/
  | attached (n : Nat)
  /-- The image an eject hands back (R304). -/
  | image (img : Option Image)
  deriving DecidableEq, Repr

/-- `attach_device` (R129): the index is the previous length; beyond `MAX_DEVICES` the call is refused. The device comes in its initial
state (R289): DESIGN CHOICE, log entry 17, that the host does nothing to it between creating it and handing it over. -/
def hostAttach (d : NewDevice) (s : State) : State × HostReply :=
  if params.maxDevices ≤ s.devices.length then (s, .refused)
  else (s.setDevices (s.devices ++ [d.create]), .attached s.devices.length)

/-- `flash` (R130): words not covered keep their values; too many words are rejected whole (or, under the other policy, cut). -/
def hostFlash (ws : List Word) (s : State) : State × HostReply :=
  if ws.length ≤ addressSpace then (s.setMem (Cells.writeBlock s.mem 0 ws), .done)
  else
    match params.flashOversize with
    | .reject => (s, .refused)
    | .truncate => (s.setMem (Cells.writeBlock s.mem 0 (ws.take addressSpace)), .done)

/-- `reset()` (R131): everything but `on_fire`, the device list and the devices' state; the status is no state of the CPU and stays. -/
def hostReset (s : State) : State :=
  { State.reset with onFire := s.onFire, devices := s.devices, status := s.status }

/-- `interrupt(message)` (R132): `Enqueue` and nothing else. -/
def hostInterrupt (m : Word) (s : State) : State := s.enqueue m

/-- The floppy controller with index `n`, if that device is one. -/
def floppyAt (n : Nat) (s : State) : Option Floppy :=
  match s.devices[n]? with
  | some (.floppy f) => some f
  | _ => none

/-- `insert` (R304): the messages it returns are enqueued at once (R285). DESIGN CHOICE, log entry 16: on fire it changes the controller
as ever, and only its messages are lost (R133 and R304 do not say). -/
def hostInsert (n : Nat) (img : Image) (writeProtected : Bool) (s : State) : State × HostReply :=
  match floppyAt n s with
  | none => (s, .refused)
  | some f =>
    match floppyInsert f img writeProtected with
    | none => (s, .refused)
    | some (f', msgs) => ((s.setDevices (s.devices.set n (.floppy f'))).enqueueAll msgs, .done)

/-- `eject` (R304): the messages it returns are enqueued at once (R285). DESIGN CHOICE, log entry 16: on fire it changes the controller
as ever, and only its messages are lost (R133 and R304 do not say). -/
def hostEject (n : Nat) (s : State) : State × HostReply :=
  match floppyAt n s with
  | none => (s, .refused)
  | some f =>
    match floppyEject f with
    | none => (s, .refused)
    | some (f', msgs, img) => ((s.setDevices (s.devices.set n (.floppy f'))).enqueueAll msgs, .image img)

/-- Set registers, in order. -/
def setRegs (s : State) : List (Reg × Word) → State
  | [] => s
  | (r, v) :: t => setRegs (s.setReg r v) t

/-- A direct device call (R129, R282); there is no reference to a device that is not attached. -/
def hostCallDevice (n : Nat) (args : List (Reg × Word)) (s : State) : State × HostReply :=
  if n < s.devices.length then (callDevice n (setRegs s args), .done) else (s, .refused)

/-- One host operation: the state after it and its answer. -/
def hostOp (op : HostOp) (s : State) : State × HostReply :=
  match op with
  | .attach d => hostAttach d s
  | .flash ws => hostFlash ws s
  | .reset => (hostReset s, .done)
  | .interrupt m => (hostInterrupt m s, .done)
  | .insert n img wp => hostInsert n img wp s
  | .eject n => hostEject n s
  | .callDevice n args => hostCallDevice n args s

/-- What the host does next: a `cycle()` call or another operation (R9, R132). -/
inductive HostEvent where
  | cycle
  | op (o : HostOp)
  deriving DecidableEq, Repr

/-- A run: a finite sequence of host operations (R134). -/
def runEvents : List HostEvent → State → Host.Outcome State Fault Refusal
  | [], s => .next s
  | .cycle :: es, s =>
    match step s with
    | .next t => runEvents es t
    | .fault r => .fault r
    | .refused r => .refused r
  | .op o :: es, s => runEvents es (hostOp o s).1

end Sys2Proof.Machine
end

