-- ==== Sys2Proof/Safety.lean ====
section
/-! DEFINITION. The terms claims use: what a good state is, the invariant of the machine, what it is for an instruction to leave the
rest alone, and where a skip ends. -/

namespace Sys2Proof.Machine

/-- A state that may end a good run: on fire is "a state that is never a good final state" (R369), and a decode error is a status a
good run does not meet (`93_implementation_defined.md` U1, U3). -/
def State.Good (s : State) : Prop := s.onFire = false ∧ s.status = .ok

/-! ### The invariant -/

/-- What holds of a floppy controller at every time (R300 to R303): the image is present exactly when there is media, it lies within
the geometry, the track is one of the disk's, BUSY is never entered, and EJECT and BROKEN are never latched. -/
def FloppyOk (f : Floppy) : Prop :=
  (f.image = none ↔ f.state = .noMedia) ∧ (∀ m, f.image = some m → Image.wf m) ∧
    f.track ≤ params.fdSectorCount / params.fdSectorsPerTrack ∧ f.state ≠ .busy ∧ f.error ≠ .eject ∧ f.error ≠ .broken

/-- What holds of a clock at every time (R331, R334): the cycle counter is below the tick length, or the clock is off and both
counters are zero. -/
def ClockOk (c : Clock) : Prop :=
  c.cycles < c.period.toNat * params.clockScale ∨ (c.period = 0 ∧ c.cycles = 0 ∧ c.ticks = 0)

/-- What holds of a display at every time (R353). -/
def DisplayOk (d : Display) : Prop := d.state = .noData ∧ d.error = .none

/-- What holds of an attached device. -/
def DeviceOk : Device → Prop
  | .floppy f => FloppyOk f
  | .clock c => ClockOk c
  | .display d => DisplayOk d
  | .external _ _ _ _ => True

/-- The invariant: memory in canonical form (R38), the queue within its capacity (R32), the device list within its limit (R35), and
every device in order. -/
structure State.Inv (s : State) : Prop where
  mem : Memory.wf s.mem
  queue : s.queue.length ≤ params.queueCap
  count : s.devices.length ≤ params.maxDevices
  devices : ∀ d ∈ s.devices, DeviceOk d

/-! ### Frames -/

/-- Every general register reads as before. -/
def SameRegs (s t : State) : Prop := ∀ r, t.reg r = s.reg r

/-- Every memory word reads as before. -/
def SameMemory (s t : State) : Prop := ∀ n, t.readMem n = s.readMem n

/-- IA, the two flags, the queue, the fatal bit, the devices and the status are as before. -/
def SameControl (s t : State) : Prop :=
  t.ia = s.ia ∧ t.ien = s.ien ∧ t.iaq = s.iaq ∧ t.queue = s.queue ∧ t.onFire = s.onFire ∧ t.devices = s.devices ∧
    t.status = s.status

/-- IA and the two interrupt flags are as before. -/
def SameInterruptControl (s t : State) : Prop := t.ia = s.ia ∧ t.ien = s.ien ∧ t.iaq = s.iaq

/-- PC, SP and EX of `t` are those of `s'`. -/
def PointersOf (s' t : State) : Prop := t.pc = s'.pc ∧ t.sp = s'.sp ∧ t.ex = s'.ex

/-- Location `l` holds `v`, and every other register and memory word is as in `s'`; EX then holds `ex` if one is given. -/
def HoldsOnly (l : Loc) (v : Word) (ex : Option Word) (s' t : State) : Prop :=
  (∀ r, t.reg r = if l = .reg r then v else s'.reg r) ∧
  t.pc = (if l = .pc then v else s'.pc) ∧
  t.sp = (if l = .sp then v else s'.sp) ∧
  t.ex = ex.getD (if l = .ex then v else s'.ex) ∧
  ∀ n, t.readMem n = if l = .mem n then v else s'.readMem n

/-- The basic instruction `i` of opcode `o` completes: it writes `res` to its destination, the location of operand b after operand a
is resolved, then `ex` to EX where one is given; PC has passed the instruction and SP has moved as its operands say unless they are
the destination; nothing else changes; the total cost is `cost` plus the operands'. -/
def WritesResult (o : BitVec 5) (i : Instr) (cost : Nat) (b : DstOperand) (a : SrcOperand) (s : State) (res : Word)
    (ex : Option Word) : Prop :=
  encode i = encodeBasic o b a ∧
  ∃ t, exec i s = .next t ∧ HoldsOnly (dstLoc b a s) res ex (resolved b a s) t ∧ SameControl s t ∧
    t.sleepCycles = cost + costA a + costB b - 1

/-- The conditional `i` of opcode `o` completes with PC at `pc` and `n` instructions skipped; nothing but PC and what resolving its
operands moves is written. -/
def GoesTo (o : BitVec 5) (i : Instr) (b : DstOperand) (a : SrcOperand) (s : State) (pc : Word) (n : Nat) : Prop :=
  encode i = encodeBasic o b a ∧
  ∃ t, exec i s = .next t ∧ t.pc = pc ∧ t.sp = (resolved b a s).sp ∧ t.ex = s.ex ∧ SameRegs s t ∧ SameMemory s t ∧
    SameControl s t ∧ t.sleepCycles = 2 + costA a + costB b + n - 1

/-- `SkipsTo mem pc pc' n`: a skip that starts at `pc` passes `n` instructions and ends at `pc'` (R239, `SKIP_CHAIN` true). -/
inductive SkipsTo (mem : Memory) : Word → Word → Nat → Prop where
  | last {pc : Word} (h : isConditional (mem.read pc) = false) :
      SkipsTo mem pc (pc + BitVec.ofNat 16 (wordLength (mem.read pc))) 1
  | more {pc pc' : Word} {n : Nat} (h : isConditional (mem.read pc) = true)
      (t : SkipsTo mem (pc + BitVec.ofNat 16 (wordLength (mem.read pc))) pc' n) : SkipsTo mem pc pc' (n + 1)

/-- Every form of the destination operand, each with the location its rule gives beside source `a` (R154 to R157, R159 to R163): operand
a is resolved first, so the forms that use SP see it after a POP (R151, R158). -/
def destinationForms (a : SrcOperand) (r : Reg) (n : Word) (s : State) : List (DstOperand × Loc) :=
  let top := s.sp + (if a = .pop then 1 else 0)
  [(.com (.reg r), .reg r), (.com (.regInd r), .mem (s.reg r)), (.com (.regOff r n), .mem (s.reg r + n)), (.push, .mem (top - 1)),
    (.com .peek, .mem top), (.com (.pick n), .mem (top + n)), (.com .sp, .sp), (.com .pc, .pc), (.com .ex, .ex),
    (.com (.direct n), .mem n), (.com (.lit n), .lit n)]

/-- Every form of the source operand, each with the value its rule gives beside destination `b` (R154 to R156, R158 to R164): its
location is fixed before b is resolved, its value is read after, so PC is the next instruction and SP has passed a PUSH (R151). -/
def sourceForms (b : DstOperand) (r : Reg) (n : Word) (s : State) : List (SrcOperand × Word) :=
  [(.com (.reg r), s.reg r), (.com (.regInd r), s.readMem (s.reg r)), (.com (.regOff r n), s.readMem (s.reg r + n)),
    (.pop, s.readMem s.sp), (.com .peek, s.readMem s.sp), (.com (.pick n), s.readMem (s.sp + n)),
    (.com .sp, if b = .push then s.sp - 1 else s.sp), (.com .pc, s.pc + BitVec.ofNat 16 (1 + (dstWords b).length)),
    (.com .ex, s.ex), (.com (.direct n), s.readMem n), (.com (.lit n), n), (.short n, n)]

/-- The queue and the fatal bit of `t` are those of `s` with `msgs` enqueued in order (R285, R363). -/
def Enqueued (msgs : List Word) (s t : State) : Prop :=
  t.queue = (s.enqueueAll msgs).queue ∧ t.onFire = (s.enqueueAll msgs).onFire

/-- The two are the same kind of device: the same reference device, or the same variant of the open set of R280. -/
def SameKind : Device → Device → Prop
  | .floppy _, .floppy _ => True
  | .clock _, .clock _ => True
  | .display _, .display _ => True
  | .external _ kind _ _, .external _ kind' _ _ => kind = kind'
  | _, _ => False

/-- The interrupt message a device is configured with (R285): the display has none to configure (R353). -/
def deviceMessage : Device → Word
  | .floppy f => f.msg
  | .clock c => c.msg
  | .display _ => 0
  | .external _ _ msg _ => msg

/-- The conditional instructions with operands `b` and `a`: each with its opcode and whether its test holds in `s` (R231 to R238). -/
def conditionals (b : DstOperand) (a : SrcOperand) (s : State) : List (Instr × BitVec 5 × Bool) :=
  [(.ifb b a, 0x10, decide (dstVal b a s &&& srcVal b a s ≠ 0)),
    (.ifc b a, 0x11, decide (dstVal b a s &&& srcVal b a s = 0)),
    (.ife b a, 0x12, decide (dstVal b a s = srcVal b a s)),
    (.ifn b a, 0x13, decide (dstVal b a s ≠ srcVal b a s)),
    (.ifg b a, 0x14, decide ((dstVal b a s).toNat > (srcVal b a s).toNat)),
    (.ifa b a, 0x15, decide ((dstVal b a s).toInt > (srcVal b a s).toInt)),
    (.ifl b a, 0x16, decide ((dstVal b a s).toNat < (srcVal b a s).toNat)),
    (.ifu b a, 0x17, decide ((dstVal b a s).toInt < (srcVal b a s).toInt))]

/-- The rows of the table that are reserved encodings (R98). -/
def isReserved : Instr → Bool
  | .set _ _ => false
  | .add _ _ => false
  | .sub _ _ => false
  | .mul _ _ => false
  | .mli _ _ => false
  | .div _ _ => false
  | .dvi _ _ => false
  | .mod _ _ => false
  | .mdi _ _ => false
  | .and _ _ => false
  | .bor _ _ => false
  | .xor _ _ => false
  | .shr _ _ => false
  | .asr _ _ => false
  | .shl _ _ => false
  | .ifb _ _ => false
  | .ifc _ _ => false
  | .ife _ _ => false
  | .ifn _ _ => false
  | .ifg _ _ => false
  | .ifa _ _ => false
  | .ifl _ _ => false
  | .ifu _ _ => false
  | .adx _ _ => false
  | .sbx _ _ => false
  | .sti _ _ => false
  | .std _ _ => false
  | .reservedBasic18 _ _ => true
  | .reservedBasic19 _ _ => true
  | .reservedBasic1c _ _ => true
  | .reservedBasic1d _ _ => true
  | .jsr _ => false
  | .int _ => false
  | .iag _ => false
  | .ias _ => false
  | .rfi _ => false
  | .iaq _ => false
  | .hwn _ => false
  | .hwq _ => false
  | .hwi _ => false
  | .reservedSpecial00 _ => true
  | .reservedSpecial02 _ => true
  | .reservedSpecial03 _ => true
  | .reservedSpecial04 _ => true
  | .reservedSpecial05 _ => true
  | .reservedSpecial06 _ => true
  | .reservedSpecial07 _ => true
  | .reservedSpecial0d _ => true
  | .reservedSpecial0e _ => true
  | .reservedSpecial0f _ => true
  | .reservedSpecial13 _ => true
  | .reservedSpecial14 _ => true
  | .reservedSpecial15 _ => true
  | .reservedSpecial16 _ => true
  | .reservedSpecial17 _ => true
  | .reservedSpecial18 _ => true
  | .reservedSpecial19 _ => true
  | .reservedSpecial1a _ => true
  | .reservedSpecial1b _ => true
  | .reservedSpecial1c _ => true
  | .reservedSpecial1d _ => true
  | .reservedSpecial1e _ => true
  | .reservedSpecial1f _ => true

/-- The instructions that write EX as a side effect (R27). -/
def writesEx : Instr → Bool
  | .set _ _ => false
  | .add _ _ => true
  | .sub _ _ => true
  | .mul _ _ => true
  | .mli _ _ => true
  | .div _ _ => true
  | .dvi _ _ => true
  | .mod _ _ => false
  | .mdi _ _ => false
  | .and _ _ => false
  | .bor _ _ => false
  | .xor _ _ => false
  | .shr _ _ => true
  | .asr _ _ => true
  | .shl _ _ => true
  | .ifb _ _ => false
  | .ifc _ _ => false
  | .ife _ _ => false
  | .ifn _ _ => false
  | .ifg _ _ => false
  | .ifa _ _ => false
  | .ifl _ _ => false
  | .ifu _ _ => false
  | .adx _ _ => true
  | .sbx _ _ => true
  | .sti _ _ => false
  | .std _ _ => false
  | .reservedBasic18 _ _ => false
  | .reservedBasic19 _ _ => false
  | .reservedBasic1c _ _ => false
  | .reservedBasic1d _ _ => false
  | .jsr _ => false
  | .int _ => false
  | .iag _ => false
  | .ias _ => false
  | .rfi _ => false
  | .iaq _ => false
  | .hwn _ => false
  | .hwq _ => false
  | .hwi _ => false
  | .reservedSpecial00 _ => false
  | .reservedSpecial02 _ => false
  | .reservedSpecial03 _ => false
  | .reservedSpecial04 _ => false
  | .reservedSpecial05 _ => false
  | .reservedSpecial06 _ => false
  | .reservedSpecial07 _ => false
  | .reservedSpecial0d _ => false
  | .reservedSpecial0e _ => false
  | .reservedSpecial0f _ => false
  | .reservedSpecial13 _ => false
  | .reservedSpecial14 _ => false
  | .reservedSpecial15 _ => false
  | .reservedSpecial16 _ => false
  | .reservedSpecial17 _ => false
  | .reservedSpecial18 _ => false
  | .reservedSpecial19 _ => false
  | .reservedSpecial1a _ => false
  | .reservedSpecial1b _ => false
  | .reservedSpecial1c _ => false
  | .reservedSpecial1d _ => false
  | .reservedSpecial1e _ => false
  | .reservedSpecial1f _ => false

/-- The location an instruction writes its result to, where it has one (files 42 to 45): `lb` of the writing basic instructions, `la`
of IAG and HWN. -/
def targetOf (s : State) : Instr → Option Loc
  | .set b a => some (dstLoc b a s)
  | .add b a => some (dstLoc b a s)
  | .sub b a => some (dstLoc b a s)
  | .mul b a => some (dstLoc b a s)
  | .mli b a => some (dstLoc b a s)
  | .div b a => some (dstLoc b a s)
  | .dvi b a => some (dstLoc b a s)
  | .mod b a => some (dstLoc b a s)
  | .mdi b a => some (dstLoc b a s)
  | .and b a => some (dstLoc b a s)
  | .bor b a => some (dstLoc b a s)
  | .xor b a => some (dstLoc b a s)
  | .shr b a => some (dstLoc b a s)
  | .asr b a => some (dstLoc b a s)
  | .shl b a => some (dstLoc b a s)
  | .ifb _ _ => none
  | .ifc _ _ => none
  | .ife _ _ => none
  | .ifn _ _ => none
  | .ifg _ _ => none
  | .ifa _ _ => none
  | .ifl _ _ => none
  | .ifu _ _ => none
  | .adx b a => some (dstLoc b a s)
  | .sbx b a => some (dstLoc b a s)
  | .sti b a => some (dstLoc b a s)
  | .std b a => some (dstLoc b a s)
  | .reservedBasic18 _ _ => none
  | .reservedBasic19 _ _ => none
  | .reservedBasic1c _ _ => none
  | .reservedBasic1d _ _ => none
  | .jsr _ => none
  | .int _ => none
  | .iag a => some (srcLoc a s)
  | .ias _ => none
  | .rfi _ => none
  | .iaq _ => none
  | .hwn a => some (srcLoc a s)
  | .hwq _ => none
  | .hwi _ => none
  | .reservedSpecial00 _ => none
  | .reservedSpecial02 _ => none
  | .reservedSpecial03 _ => none
  | .reservedSpecial04 _ => none
  | .reservedSpecial05 _ => none
  | .reservedSpecial06 _ => none
  | .reservedSpecial07 _ => none
  | .reservedSpecial0d _ => none
  | .reservedSpecial0e _ => none
  | .reservedSpecial0f _ => none
  | .reservedSpecial13 _ => none
  | .reservedSpecial14 _ => none
  | .reservedSpecial15 _ => none
  | .reservedSpecial16 _ => none
  | .reservedSpecial17 _ => none
  | .reservedSpecial18 _ => none
  | .reservedSpecial19 _ => none
  | .reservedSpecial1a _ => none
  | .reservedSpecial1b _ => none
  | .reservedSpecial1c _ => none
  | .reservedSpecial1d _ => none
  | .reservedSpecial1e _ => none
  | .reservedSpecial1f _ => none

end Sys2Proof.Machine
end

