-- ==== Sys2Proof/Certificates/Slice0/Obligations.lean ====
section
/-! DEFINITION. The statements for the provers. Each docstring names the rules of `spec/` it formalises. -/

open Sys2Proof Sys2Proof.Machine

/-! ### Encoding -/

/-- R90 to R97: decoding the words of any well-formed instruction gives the instruction back and leaves the words after it. -/
def Obligations.DecodeOfEncode : Prop :=
  ∀ (i : Instr) (rest : List Word), i.wf = true → decodeList (encode i ++ rest) = .ok (i, rest)

/-- R90, R93: what three words decode to is well-formed, and encoding it gives back the words R93 says belong to it, one to three. -/
def Obligations.EncodeOfDecode : Prop :=
  ∀ w0 w1 w2 : Word, (decode w0 w1 w2).wf = true ∧ encode (decode w0 w1 w2) = [w0, w1, w2].take (wordLength w0) ∧
    1 ≤ wordLength w0 ∧ wordLength w0 ≤ 3

/-- A sanity check of a few words written out from the tables R94, R96, R97 (`95_test_vectors.md` section 2.1). -/
def Obligations.SampleWordsDecode : Prop :=
  decodeList [0x9801] = .ok (.set (.com (.reg .a)) (.short 5), []) ∧
  decodeList [0x7FC1, 0x5555, 0x2000] = .ok (.set (.com (.direct 0x2000)) (.com (.lit 0x5555)), []) ∧
  decodeList [0x0022] = .ok (.add (.com (.reg .b)) (.com (.reg .a)), []) ∧
  decodeList [0x7C20, 0x0100] = .ok (.jsr (.com (.lit 0x0100)), []) ∧
  decodeList [0x8640] = .ok (.hwi (.short 0), []) ∧
  decodeList [0x8560] = .ok (.rfi (.short 0), []) ∧
  decodeList [0x0000] = .ok (.reservedSpecial00 (.com (.reg .a)), []) ∧
  decodeList [0x8061] = .ok (.set (.com (.reg .x)) (.short 0xFFFF), []) ∧
  decodeList [0x7C01] = .error .truncated

/-- R98: which first words are reserved encodings. -/
def Obligations.ReservedFirstWords : Prop :=
  ∀ w0 w1 w2 : Word, isReserved (decode w0 w1 w2) = true ↔
    (fieldO w0).toNat ∈ [0x18, 0x19, 0x1c, 0x1d] ∨
    ((fieldO w0).toNat = 0 ∧ ((fieldB w0).toNat ∈ [0x00, 0x02, 0x03, 0x04, 0x05, 0x06, 0x07, 0x0d, 0x0e, 0x0f] ∨
      0x13 ≤ (fieldB w0).toNat))

/-! ### The step -/

/-- R122 to R127: when the words at PC, wrapping, are those of a well-formed instruction `i`, and no cycle is owed and the CPU is not
on fire, the step is `exec i` with the status started as Ok, then delivery, then the devices, then the status. -/
def Obligations.StepRunsDecodedInstruction : Prop :=
  ∀ (s : State) (i : Instr), s.onFire = false → s.sleepCycles = 0 → i.wf = true →
    (∀ k, k < (encode i).length → s.readMem (s.pc + BitVec.ofNat 16 k) = (encode i).getD k 0) →
    step s = match exec i (s.setStatus .ok) with
      | .next t => .next (settleStatus (cycleDevices t.deliver))
      | .fault r => .fault r
      | .refused r => .refused r

/-- R121, R125, R406: a call that finds owed cycles pays one and decodes nothing. Where no message can be delivered, no register, no
memory word and no interrupt flag changes; where one can, they change exactly as the delivery of R365 changes them. The queue and the
devices, which the same call steps (R126), are not spoken of here: DeviceSteppingInOrder, SleepingCallStepsEveryDevice and
QueueIsFifoOverACall are about them. The status is where log entry 2 puts it. -/
def Obligations.SleepingCallDecodesNothing : Prop :=
  ∀ (s : State) (n : Nat), s.onFire = false → s.sleepCycles = n + 1 →
    ∃ t, step s = .next t ∧ t.sleepCycles = n ∧ t.ex = s.ex ∧ t.ia = s.ia ∧ t.ien = s.ien ∧
      (t.status = if t.onFire then .onFire else .ok) ∧
      ((s.queue = [] ∨ s.ien = false ∨ s.ia = 0 ∨ s.iaq = true) →
        SameRegs s t ∧ SameMemory s t ∧ t.pc = s.pc ∧ t.sp = s.sp ∧ t.iaq = s.iaq) ∧
      (∀ m rest, s.queue = m :: rest → s.ien = true → s.ia ≠ 0 → s.iaq = false →
        (∀ r, t.reg r = if r = .a then m else s.reg r) ∧ t.pc = s.ia ∧ t.sp = s.sp - 2 ∧ t.iaq = true ∧
        ∀ a, t.readMem a = if a = s.sp - 2 then s.reg .a else if a = s.sp - 1 then s.pc else s.readMem a)

/-- R121, R125, R126, R284, R285, R314, R332, R337, R354: what every device's `cycle()` returns, and that a call that finds owed cycles
pays one, delivers, and then steps the devices. If it does not catch fire it calls every device's `cycle()` once and enqueues what
those calls return behind what delivery left in the queue: a clock counts by R337 and returns its message at its tick, a floppy
controller and a display do nothing, any other device moves by its own `cycle()` and keeps its interrupt message. (What an external
device's `cycle()` works on, and that it sets no interrupt message, is the model's choice, log entry 10; the spec's words are those of
R285, that the configuration sub-command sets the message. The status is where log entry 2 puts it.) -/
def Obligations.SleepingCallStepsEveryDevice : Prop :=
  (∀ d : Device, (deviceCycle d).2 = match d with
    | .clock c => if c.period ≠ 0 ∧ c.period.toNat ≤ c.cycles + 1 ∧ c.msg ≠ 0 then [c.msg] else []
    | .floppy _ => []
    | .display _ => []
    | .external _ kind msg priv => if msg = 0 then [] else (Config.externalCycle kind msg priv).2) ∧
  ∀ s t : State, s.onFire = false → s.sleepCycles ≠ 0 → step s = .next t →
    t = settleStatus (cycleDevices ((s.setStatus .ok).setSleep (s.sleepCycles - 1)).deliver) ∧
    (t.onFire = false →
      t.queue = s.deliver.queue ++ s.devices.flatMap (fun d => (deviceCycle d).2) ∧
      t.devices.length = s.devices.length ∧
      ∀ (n : Nat) (d : Device), s.devices[n]? = some d → t.devices[n]? = some (match d with
        | .clock c =>
          if c.period = 0 then .clock c
          else if c.period.toNat ≤ c.cycles + 1 then .clock { c with cycles := 0, ticks := c.ticks + 1 }
          else .clock { c with cycles := c.cycles + 1 }
        | .floppy f => .floppy f
        | .display p => .display p
        | .external id kind msg priv => .external id kind msg (Config.externalCycle kind msg priv).1))

/-- R126, R128, R284, R285, R406: stepping the devices touches no register, no memory word and no flag; every device moves by its own
`cycle()` and the messages are enqueued in attachment order. If the CPU catches fire here, then some device `d`, at index `k`, returned
a message `m` that found the queue full: the queue holds the messages of the devices before `d` and those `d` returned before `m`, and
neither `m` nor a later one; the devices up to `d` have moved, and those after it are not called. On fire, none is called. -/
def Obligations.DeviceSteppingInOrder : Prop :=
  ∀ s : State,
    SameRegs s (cycleDevices s) ∧ SameMemory s (cycleDevices s) ∧ PointersOf s (cycleDevices s) ∧
    (cycleDevices s).ia = s.ia ∧ (cycleDevices s).ien = s.ien ∧ (cycleDevices s).iaq = s.iaq ∧
    (cycleDevices s).sleepCycles = s.sleepCycles ∧ (cycleDevices s).status = s.status ∧
    (s.onFire = true → cycleDevices s = s) ∧
    ((cycleDevices s).onFire = false →
      (cycleDevices s).devices = s.devices.map (fun d => (deviceCycle d).1) ∧
      (cycleDevices s).queue = s.queue ++ s.devices.flatMap fun d => (deviceCycle d).2) ∧
    (s.onFire = false → (cycleDevices s).onFire = true →
      ∃ k d pre m rest, s.devices[k]? = some d ∧ (deviceCycle d).2 = pre ++ m :: rest ∧
        (cycleDevices s).queue = s.queue ++ (s.devices.take k).flatMap (fun d => (deviceCycle d).2) ++ pre ∧
        256 ≤ (cycleDevices s).queue.length ∧
        (cycleDevices s).devices = (s.devices.take (k + 1)).map (fun d => (deviceCycle d).1) ++ s.devices.drop (k + 1))

/-- R127, R372: the status a call returns: OnFire if the CPU is on fire when it returns; otherwise DecodeError with the word and the
address it was fetched from if this call executed a reserved encoding; otherwise Ok. `State.status` is where the
model holds it (log entry 2). -/
def Obligations.StatusOfEveryCall : Prop :=
  ∀ s t : State, step s = .next t →
    t.status = if t.onFire then .onFire
      else if s.sleepCycles = 0 ∧ isReserved (decode (s.readMem s.pc) (s.readMem (s.pc + 1)) (s.readMem (s.pc + 2))) then
        .decodeError (s.readMem s.pc) s.pc
      else .ok

/-- R120, R33: once on fire, any positive number of calls changes nothing and the status is OnFire. -/
def Obligations.OnFireCallsChangeNothing : Prop :=
  ∀ (s : State) (n : Nat), s.onFire = true → Host.Core.run Sys2Proof.core (n + 1) s = .next (s.setStatus .onFire)

/-- R128: if executing the instruction sets the CPU on fire, the call ends there: the instruction's effects stand, nothing is
delivered, no device is stepped, the status is OnFire. -/
def Obligations.CatchingFireEndsTheCall : Prop :=
  ∀ s t : State, s.onFire = false → s.sleepCycles = 0 → exec s.fetchInstr (s.setStatus .ok) = .next t → t.onFire = true →
    step s = .next (t.setStatus .onFire)

/-- R362, R363, R364, R367: over any call, messages leave the queue only at its head, at most one of them, and only by being delivered;
messages enter only at its tail. None is dropped. -/
def Obligations.QueueIsFifoOverACall : Prop :=
  ∀ s t : State, step s = .next t →
    ∃ delivered new, s.queue ++ new = delivered ++ t.queue ∧ delivered.length ≤ 1 ∧
      (delivered ≠ [] → t.iaq = true ∧ t.pc = t.ia ∧ delivered = [t.reg .a])

/-! ### Operands -/

/-- R23, R24, R150, R157, R158, R165: resolving the operands of a basic instruction moves PC over all its words, SP down by one for
PUSH and up by one for POP, and changes nothing else. -/
def Obligations.ResolutionMovesOnlyPcAndSp : Prop :=
  ∀ (b : DstOperand) (a : SrcOperand) (s : State),
    (resolved b a s).pc = s.pc + BitVec.ofNat 16 (1 + (srcWords a).length + (dstWords b).length) ∧
    (resolved b a s).sp = s.sp + (if a = .pop then 1 else 0) - (if b = .push then 1 else 0) ∧
    (resolved b a s).ex = s.ex ∧ SameRegs s (resolved b a s) ∧ (resolved b a s).mem = s.mem ∧
    SameControl s (resolved b a s) ∧ (resolved b a s).sleepCycles = s.sleepCycles ∧
    costA a = (srcWords a).length ∧ costB b = (dstWords b).length

/-- R154 to R164, R151: what `SET C, <operand>` reads, for every form of the source operand. -/
def Obligations.SourceOperandForms : Prop :=
  ∀ (s : State) (r : Reg) (n : Word),
    ∀ p ∈ [(SrcOperand.com (.reg r), s.reg r), (.com (.regInd r), s.readMem (s.reg r)),
      (.com (.regOff r n), s.readMem (s.reg r + n)), (.pop, s.readMem s.sp), (.com .peek, s.readMem s.sp),
      (.com (.pick n), s.readMem (s.sp + n)), (.com .sp, s.sp), (.com .pc, s.pc + 1), (.com .ex, s.ex),
      (.com (.direct n), s.readMem n), (.com (.lit n), n), (.short n, n)],
      ∃ t, exec (.set (.com (.reg .c)) p.1) s = .next t ∧ (∀ q, t.reg q = if q = .c then p.2 else s.reg q) ∧
        SameMemory s t ∧ t.ex = s.ex

/-- R150, R151, R154 to R164, R166: for every destination form beside every source form, where `SET b, a` writes and what. Operand a
is resolved first, so a POP has moved SP before PUSH, PEEK and PICK in b take their address; values are read after both, so SP as a
source is SP after a PUSH in b, and PC as a source is the address of the next instruction. A literal destination drops the write. -/
def Obligations.DestinationOperandForms : Prop :=
  ∀ (s : State) (r q : Reg) (n k v : Word) (b : DstOperand) (a : SrcOperand) (l : Loc),
    (b, l) ∈ destinationForms a r n s → (a, v) ∈ sourceForms b q k s →
    ∃ t, exec (.set b a) s = .next t ∧
      (∀ p, t.reg p = if l = .reg p then v else s.reg p) ∧
      (∀ m, t.readMem m = if l = .mem m then v else s.readMem m) ∧
      t.sp = (if l = .sp then v else s.sp + (if a = .pop then 1 else 0) - (if b = .push then 1 else 0)) ∧
      t.pc = (if l = .pc then v else s.pc + BitVec.ofNat 16 (1 + (srcWords a).length + (dstWords b).length)) ∧
      t.ex = (if l = .ex then v else s.ex) ∧ SameControl s t

/-- R166: a write to a literal destination changes no register and no memory word; EX still receives what the opcode gives it, and the
costs are as usual: the opcode's base cost (R124), one for the word of a next-word literal and what the other operand costs, less the
call that executes. -/
def Obligations.LiteralDestinationDropsWrite : Prop :=
  ∀ (a : SrcOperand) (n : Word) (s : State),
    (∀ p ∈ [(Instr.set, 1), (.add, 2), (.sub, 2), (.mul, 2), (.mli, 2), (.div, 3), (.dvi, 3), (.mod, 3), (.mdi, 3), (.and, 1),
      (.bor, 1), (.xor, 1), (.shr, 1), (.asr, 1), (.shl, 1), (.adx, 3), (.sbx, 3)],
      ∃ t, exec (p.1 (.com (.lit n)) a) s = .next t ∧ SameRegs s t ∧ SameMemory s t ∧
        t.pc = (resolved (.com (.lit n)) a s).pc ∧ t.sp = (resolved (.com (.lit n)) a s).sp ∧
        (writesEx (p.1 (.com (.lit n)) a) = false → t.ex = s.ex) ∧ SameControl s t ∧
        t.sleepCycles = p.2 + costA a + 1 - 1) ∧
    (∃ t, exec (.add (.com (.lit n)) a) s = .next t ∧
      t.ex = if n.toNat + (srcVal (.com (.lit n)) a s).toNat > 65535 then 1 else 0) ∧
    (∀ p ∈ [(Instr.iag, 1), (.hwn, 2)], ∀ l ∈ [(SrcOperand.com (.lit n), 1), (.short n, 0)],
      ∃ t, exec (p.1 l.1) s = .next t ∧ SameRegs s t ∧ SameMemory s t ∧ t.pc = (afterSrc l.1 s).pc ∧ t.sp = s.sp ∧ t.ex = s.ex ∧
        SameControl s t ∧ t.sleepCycles = p.2 + l.2 - 1)

/-! ### Data movement and arithmetic -/

/-- R180: SET. -/
def Obligations.SetResult : Prop :=
  ∀ (b : DstOperand) (a : SrcOperand) (s : State), WritesResult 0x01 (.set b a) 1 b a s (srcVal b a s) none

/-- R181, R182: ADD and SUB, with the carry and the borrow. -/
def Obligations.AddSubResult : Prop :=
  ∀ (b : DstOperand) (a : SrcOperand) (s : State),
    WritesResult 0x02 (.add b a) 2 b a s (BitVec.ofNat 16 ((dstVal b a s).toNat + (srcVal b a s).toNat))
      (some (if (dstVal b a s).toNat + (srcVal b a s).toNat > 65535 then 0x0001 else 0)) ∧
    WritesResult 0x03 (.sub b a) 2 b a s (dstVal b a s - srcVal b a s)
      (some (if (dstVal b a s).toNat < (srcVal b a s).toNat then 0xFFFF else 0))

/-- R183, R184: MUL and MLI, with the high word of the 32-bit product. -/
def Obligations.MulMliResult : Prop :=
  ∀ (b : DstOperand) (a : SrcOperand) (s : State),
    WritesResult 0x04 (.mul b a) 2 b a s (BitVec.ofNat 16 ((dstVal b a s).toNat * (srcVal b a s).toNat))
      (some (BitVec.ofNat 16 ((dstVal b a s).toNat * (srcVal b a s).toNat / 65536))) ∧
    WritesResult 0x05 (.mli b a) 2 b a s (BitVec.ofInt 16 ((dstVal b a s).toInt * (srcVal b a s).toInt))
      (some (BitVec.ofInt 16 ((dstVal b a s).toInt * (srcVal b a s).toInt / 65536)))

/-- R185, R186: DIV and DVI, zero on division by zero. The EX of DVI and its overflow case are the spec's own reading (R186). -/
def Obligations.DivDviResult : Prop :=
  ∀ (b : DstOperand) (a : SrcOperand) (s : State),
    (srcVal b a s = 0 → WritesResult 0x06 (.div b a) 3 b a s 0 (some 0) ∧ WritesResult 0x07 (.dvi b a) 3 b a s 0 (some 0)) ∧
    (srcVal b a s ≠ 0 →
      WritesResult 0x06 (.div b a) 3 b a s (BitVec.ofNat 16 ((dstVal b a s).toNat / (srcVal b a s).toNat))
        (some (BitVec.ofNat 16 ((dstVal b a s).toNat * 65536 / (srcVal b a s).toNat))) ∧
      WritesResult 0x07 (.dvi b a) 3 b a s (BitVec.ofInt 16 ((dstVal b a s).toInt.tdiv (srcVal b a s).toInt))
        (some (BitVec.ofInt 16 (((dstVal b a s).toInt * 65536).tdiv (srcVal b a s).toInt))))

/-- R187, R188: MOD and MDI, zero on division by zero; the remainder has the sign of the dividend; EX is not written. -/
def Obligations.ModMdiResult : Prop :=
  ∀ (b : DstOperand) (a : SrcOperand) (s : State),
    (srcVal b a s = 0 → WritesResult 0x08 (.mod b a) 3 b a s 0 none ∧ WritesResult 0x09 (.mdi b a) 3 b a s 0 none) ∧
    (srcVal b a s ≠ 0 →
      WritesResult 0x08 (.mod b a) 3 b a s (BitVec.ofNat 16 ((dstVal b a s).toNat % (srcVal b a s).toNat)) none ∧
      WritesResult 0x09 (.mdi b a) 3 b a s (BitVec.ofInt 16 ((dstVal b a s).toInt.tmod (srcVal b a s).toInt)) none)

/-- R190, R191: ADX and SBX read EX as an unsigned word. -/
def Obligations.AdxSbxResult : Prop :=
  ∀ (b : DstOperand) (a : SrcOperand) (s : State),
    WritesResult 0x1a (.adx b a) 3 b a s (dstVal b a s + srcVal b a s + s.ex)
      (some (if (dstVal b a s).toNat + (srcVal b a s).toNat + s.ex.toNat > 65535 then 0x0001 else 0)) ∧
    WritesResult 0x1b (.sbx b a) 3 b a s (dstVal b a s - srcVal b a s + s.ex)
      (some (if (dstVal b a s).toNat + s.ex.toNat < (srcVal b a s).toNat then 0xFFFF
        else if (dstVal b a s).toNat + s.ex.toNat > 65535 + (srcVal b a s).toNat then 0x0001 else 0))

/-- R210, R211, R212: AND, BOR and XOR; EX is not written. -/
def Obligations.LogicResults : Prop :=
  ∀ (b : DstOperand) (a : SrcOperand) (s : State),
    WritesResult 0x0a (.and b a) 1 b a s (dstVal b a s &&& srcVal b a s) none ∧
    WritesResult 0x0b (.bor b a) 1 b a s (dstVal b a s ||| srcVal b a s) none ∧
    WritesResult 0x0c (.xor b a) 1 b a s (dstVal b a s ^^^ srcVal b a s) none

/-- R213: SHR, for every amount. -/
def Obligations.ShrResult : Prop :=
  ∀ (b : DstOperand) (a : SrcOperand) (s : State),
    WritesResult 0x0d (.shr b a) 1 b a s (BitVec.ofNat 16 ((dstVal b a s).toNat / 2 ^ (srcVal b a s).toNat))
      (some (BitVec.ofNat 16 ((dstVal b a s).toNat * 65536 / 2 ^ (srcVal b a s).toNat)))

/-- R214: ASR, for every amount; the result is the floor of the signed quotient, EX is that of SHR (for amounts above 16 the spec's own
choice, as R214 says). -/
def Obligations.AsrResult : Prop :=
  ∀ (b : DstOperand) (a : SrcOperand) (s : State),
    WritesResult 0x0e (.asr b a) 1 b a s (BitVec.ofInt 16 ((dstVal b a s).toInt / 2 ^ (srcVal b a s).toNat))
      (some (BitVec.ofNat 16 ((dstVal b a s).toNat * 65536 / 2 ^ (srcVal b a s).toNat)))

/-- R215: SHL, for every amount. -/
def Obligations.ShlResult : Prop :=
  ∀ (b : DstOperand) (a : SrcOperand) (s : State),
    WritesResult 0x0f (.shl b a) 1 b a s (BitVec.ofNat 16 ((dstVal b a s).toNat * 2 ^ (srcVal b a s).toNat))
      (some (BitVec.ofNat 16 ((dstVal b a s).toNat * 2 ^ (srcVal b a s).toNat / 65536)))

/-- R192, R193, R189: STI and STD store, then step I and J by one, a store into I or J included; EX is not written. -/
def Obligations.StiStdResult : Prop :=
  ∀ (b : DstOperand) (a : SrcOperand) (s : State),
    ∀ p ∈ [(Instr.sti b a, (0x1e : BitVec 5), (1 : Word)), (.std b a, 0x1f, 0xFFFF)],
      encode p.1 = encodeBasic p.2.1 b a ∧
      ∃ t, exec p.1 s = .next t ∧
        (∀ r, t.reg r = (if dstLoc b a s = .reg r then srcVal b a s else s.reg r) +
          (if r = .i ∨ r = .j then p.2.2 else 0)) ∧
        t.pc = (if dstLoc b a s = .pc then srcVal b a s else (resolved b a s).pc) ∧
        t.sp = (if dstLoc b a s = .sp then srcVal b a s else (resolved b a s).sp) ∧
        t.ex = (if dstLoc b a s = .ex then srcVal b a s else s.ex) ∧
        (∀ n, t.readMem n = if dstLoc b a s = .mem n then srcVal b a s else s.readMem n) ∧
        SameControl s t ∧ t.sleepCycles = 2 + costA a + costB b - 1

/-! ### Conditionals -/

/-- R230 to R238: a conditional whose test holds goes on to the next instruction, at cost 2 plus operands. -/
def Obligations.ConditionalPasses : Prop :=
  ∀ (b : DstOperand) (a : SrcOperand) (s : State),
    ∀ p ∈ conditionals b a s, p.2.2 = true → GoesTo p.2.1 p.1 b a s (resolved b a s).pc 0

/-- R230 to R240: a conditional whose test fails skips: wherever the chain of conditionals ends, PC goes there, at one cycle more per
instruction skipped. -/
def Obligations.ConditionalFailsAndSkips : Prop :=
  ∀ (b : DstOperand) (a : SrcOperand) (s : State) (pc : Word) (n : Nat), SkipsTo s.mem (resolved b a s).pc pc n →
    ∀ p ∈ conditionals b a s, p.2.2 = false → GoesTo p.2.1 p.1 b a s pc n

/-- The model's choice (log entry 8) for a skip that never ends: `exec` faults exactly when a conditional's test fails and no chain of
conditionals from there comes to an end; in every other case, for every instruction, it answers a next state. -/
def Obligations.OnlyEndlessSkipsStop : Prop :=
  ∀ (i : Instr) (s : State),
    (exec i s = .fault .skipNeverEnds ↔
      ∃ b a o, (i, o, false) ∈ conditionals b a s ∧ ∀ pc n, ¬SkipsTo s.mem (resolved b a s).pc pc n) ∧
    (exec i s ≠ .fault .skipNeverEnds → ∃ t, exec i s = .next t)

/-! ### Special instructions -/

/-- R251: JSR reads its operand, then pushes the address of the next instruction, then jumps. -/
def Obligations.JsrResult : Prop :=
  ∀ (a : SrcOperand) (s : State),
    encode (.jsr a) = encodeSpecial 0x01 a ∧
    ∃ t, exec (.jsr a) s = .next t ∧ t.pc = argVal a s ∧ t.sp = (afterSrc a s).sp - 1 ∧
      (∀ n, t.readMem n = if n = (afterSrc a s).sp - 1 then (afterSrc a s).pc else s.readMem n) ∧
      SameRegs s t ∧ t.ex = s.ex ∧ SameControl s t ∧ t.sleepCycles = 2 + costA a

/-- R252, R363, R368: INT appends its operand to the queue, or sets the CPU on fire when the queue is full; it delivers nothing itself
and changes nothing else. -/
def Obligations.IntQueuesMessage : Prop :=
  ∀ (a : SrcOperand) (s : State),
    encode (.int a) = encodeSpecial 0x08 a ∧
    ∃ t, exec (.int a) s = .next t ∧ SameRegs s t ∧ SameMemory s t ∧ PointersOf (afterSrc a s) t ∧ t.ia = s.ia ∧
      t.ien = s.ien ∧ t.iaq = s.iaq ∧ t.devices = s.devices ∧ t.status = s.status ∧ t.sleepCycles = 3 + costA a ∧
      (s.onFire = false → s.queue.length < 256 → t.queue = s.queue ++ [argVal a s] ∧ t.onFire = false) ∧
      (s.onFire = false → 256 ≤ s.queue.length → t.queue = s.queue ∧ t.onFire = true)

/-- R254, R258: IAG writes IA, and HWN the number of devices, to the location of its operand, and nothing else. -/
def Obligations.IagHwnWriteOperand : Prop :=
  ∀ (a : SrcOperand) (s : State),
    ∀ p ∈ [(Instr.iag a, (0x09 : BitVec 5), s.ia, 0), (.hwn a, 0x10, BitVec.ofNat 16 s.devices.length, 1)],
      encode p.1 = encodeSpecial p.2.1 a ∧
      ∃ t, exec p.1 s = .next t ∧ HoldsOnly (srcLoc a s) p.2.2.1 none (afterSrc a s) t ∧ SameControl s t ∧
        t.sleepCycles = p.2.2.2 + costA a

/-- R255, R257: IAS sets IA and the enable flag, IAQ the queueing flag, and nothing else. -/
def Obligations.IasIaqResult : Prop :=
  ∀ (a : SrcOperand) (s : State),
    (encode (.ias a) = encodeSpecial 0x0a a ∧
      ∃ t, exec (.ias a) s = .next t ∧ t.ia = argVal a s ∧ t.ien = decide (argVal a s ≠ 0) ∧ t.iaq = s.iaq ∧
        SameRegs s t ∧ SameMemory s t ∧ PointersOf (afterSrc a s) t ∧ t.queue = s.queue ∧ t.onFire = s.onFire ∧
        t.devices = s.devices ∧ t.status = s.status ∧ t.sleepCycles = costA a) ∧
    (encode (.iaq a) = encodeSpecial 0x0c a ∧
      ∃ t, exec (.iaq a) s = .next t ∧ t.iaq = decide (argVal a s ≠ 0) ∧ t.ia = s.ia ∧ t.ien = s.ien ∧
        SameRegs s t ∧ SameMemory s t ∧ PointersOf (afterSrc a s) t ∧ t.queue = s.queue ∧ t.onFire = s.onFire ∧
        t.devices = s.devices ∧ t.status = s.status ∧ t.sleepCycles = 1 + costA a)

/-- R256: RFI clears the queueing flag, pops A, then pops PC; its operand's side effects come first and its value is ignored. -/
def Obligations.RfiResult : Prop :=
  ∀ (a : SrcOperand) (s : State),
    encode (.rfi a) = encodeSpecial 0x0b a ∧
    ∃ t, exec (.rfi a) s = .next t ∧ t.iaq = false ∧
      (∀ r, t.reg r = if r = .a then s.readMem (afterSrc a s).sp else s.reg r) ∧
      t.pc = s.readMem ((afterSrc a s).sp + 1) ∧ t.sp = (afterSrc a s).sp + 2 ∧ t.ex = s.ex ∧ SameMemory s t ∧
      t.ia = s.ia ∧ t.ien = s.ien ∧ t.queue = s.queue ∧ t.onFire = s.onFire ∧ t.devices = s.devices ∧
      t.status = s.status ∧ t.sleepCycles = 2 + costA a

/-- R259, R63, R288: HWQ delivers the identity of the device, low words first, or five zeros for an index no device has. -/
def Obligations.HwqDeliversIdentity : Prop :=
  ∀ (a : SrcOperand) (s : State),
    encode (.hwq a) = encodeSpecial 0x11 a ∧
    ∃ t, exec (.hwq a) s = .next t ∧ SameMemory s t ∧ PointersOf (afterSrc a s) t ∧ SameControl s t ∧
      t.sleepCycles = 3 + costA a ∧ t.reg .z = s.reg .z ∧ t.reg .i = s.reg .i ∧ t.reg .j = s.reg .j ∧
      (s.devices[(argVal a s).toNat]? = none →
        t.reg .a = 0 ∧ t.reg .b = 0 ∧ t.reg .c = 0 ∧ t.reg .x = 0 ∧ t.reg .y = 0) ∧
      (∀ d, s.devices[(argVal a s).toNat]? = some d →
        t.reg .b ++ t.reg .a = (deviceIdentity d).deviceId ∧ t.reg .c = (deviceIdentity d).version ∧
        t.reg .y ++ t.reg .x = (deviceIdentity d).manufacturer ∧
        (∀ f, d = .floppy f → t.reg .a = 0x24C5 ∧ t.reg .b = 0x4FD5 ∧ t.reg .c = 0x000B ∧ t.reg .x = 0x7E91 ∧
          t.reg .y = 0x1EB3) ∧
        (∀ c, d = .clock c → t.reg .a = 0xB402 ∧ t.reg .b = 0x12D0 ∧ t.reg .c = 0x0001 ∧ t.reg .x = 0 ∧ t.reg .y = 0) ∧
        (∀ p, d = .display p → t.reg .a = 0xBF3C ∧ t.reg .b = 0x42BA ∧ t.reg .c = 0x0003 ∧ t.reg .x = 0x7E91 ∧
          t.reg .y = 0x1EB3))

/-- R260: HWI on an index no device has changes nothing and costs 4 plus its operand. -/
def Obligations.HwiAbsentDeviceIsNoOp : Prop :=
  ∀ (a : SrcOperand) (s : State), s.devices[(argVal a s).toNat]? = none →
    encode (.hwi a) = encodeSpecial 0x12 a ∧
    ∃ t, exec (.hwi a) s = .next t ∧ SameRegs s t ∧ SameMemory s t ∧ PointersOf (afterSrc a s) t ∧ SameControl s t ∧
      t.sleepCycles = 3 + costA a

/-- R260, R333 to R336: HWI on a clock, by the sub-command in A: 0 sets the period and restarts both counters, 1 answers the ticks in C
and clears them, 2 sets the message, any other changes nothing; nothing is raised. -/
def Obligations.HwiOnClock : Prop :=
  ∀ (a : SrcOperand) (s : State) (c : Clock), s.devices[(argVal a s).toNat]? = some (.clock c) →
    ∃ t, exec (.hwi a) s = .next t ∧ SameMemory s t ∧ PointersOf (afterSrc a s) t ∧ t.ia = s.ia ∧ t.ien = s.ien ∧
      t.iaq = s.iaq ∧ t.queue = s.queue ∧ t.onFire = s.onFire ∧ t.status = s.status ∧ t.sleepCycles = 3 + costA a ∧
      (∀ r, t.reg r = if r = .c ∧ s.reg .a = 1 then c.ticks else s.reg r) ∧
      t.devices = s.devices.set (argVal a s).toNat (.clock
        (if s.reg .a = 0 then { c with period := s.reg .x, cycles := 0, ticks := 0 }
        else if s.reg .a = 1 then { c with ticks := 0 }
        else if s.reg .a = 2 then { c with msg := s.reg .x }
        else c))

/-- R306, R307, R311: HWI on a floppy controller with A = 0 polls and clears the latch, with A = 1 sets the message, with A above 3
changes nothing; nothing is raised. -/
def Obligations.HwiFloppyPollAndConfigure : Prop :=
  ∀ (a : SrcOperand) (s : State) (f : Floppy), s.devices[(argVal a s).toNat]? = some (.floppy f) →
    s.reg .a ≠ 2 → s.reg .a ≠ 3 →
    ∃ t, exec (.hwi a) s = .next t ∧ SameMemory s t ∧ PointersOf (afterSrc a s) t ∧ t.ia = s.ia ∧ t.ien = s.ien ∧
      t.iaq = s.iaq ∧ t.queue = s.queue ∧ t.onFire = s.onFire ∧ t.status = s.status ∧ t.sleepCycles = 3 + costA a ∧
      (∀ r, t.reg r =
        if r = .b ∧ s.reg .a = 0 then
          (match f.state with | .noMedia => 0 | .ready => 1 | .readyWriteProtected => 2 | .busy => 3)
        else if r = .c ∧ s.reg .a = 0 then
          (match f.error with
            | .none => 0 | .busy => 1 | .noMedia => 2 | .writeProtected => 3 | .eject => 4 | .badSector => 5 | .broken => 0xFFFF)
        else s.reg r) ∧
      t.devices = s.devices.set (argVal a s).toNat (.floppy
        (if s.reg .a = 0 then { f with error := .none } else if s.reg .a = 1 then { f with msg := s.reg .x } else f))

/-- R305, R308, R309, R312: HWI on a floppy controller with A = 2. Without ready media, or out of bounds, B is 0, the error is latched,
the message is raised if the latch changed, and no memory word changes; otherwise the whole sector is in memory, B is 1, the track and
the seek time, in units of the open constant (log entry 7), are booked, and nothing is raised. -/
def Obligations.HwiFloppyRead : Prop :=
  ∀ (a : SrcOperand) (s : State) (f : Floppy), s.devices[(argVal a s).toNat]? = some (.floppy f) → s.reg .a = 2 →
    ∃ t, exec (.hwi a) s = .next t ∧ PointersOf (afterSrc a s) t ∧ t.ia = s.ia ∧ t.ien = s.ien ∧ t.iaq = s.iaq ∧
      t.status = s.status ∧ t.sleepCycles = 3 + costA a ∧
      (∀ e, (e = if f.state = .noMedia then FloppyError.noMedia else if f.state = .busy then .busy else .badSector) →
        (f.state = .noMedia ∨ f.state = .busy ∨ 1440 ≤ (s.reg .x).toNat ∨ 65536 < (s.reg .y).toNat + 512) →
        (∀ r, t.reg r = if r = .b then 0 else s.reg r) ∧ SameMemory s t ∧
        t.devices = s.devices.set (argVal a s).toNat (.floppy { f with error := e }) ∧
        Enqueued (if e ≠ f.error ∧ f.msg ≠ 0 then [f.msg] else []) s t) ∧
      ((f.state = .ready ∨ f.state = .readyWriteProtected) → (s.reg .x).toNat < 1440 → (s.reg .y).toNat + 512 ≤ 65536 →
        (∀ r, t.reg r = if r = .b then 1 else s.reg r) ∧
        (∀ n : Word, t.readMem n =
          if (s.reg .y).toNat ≤ n.toNat ∧ n.toNat < (s.reg .y).toNat + 512 then
            Cells.read (f.image.getD []) ((s.reg .x).toNat * 512 + (n.toNat - (s.reg .y).toNat))
          else s.readMem n) ∧
        t.devices = s.devices.set (argVal a s).toNat (.floppy { f with
          track := (s.reg .x).toNat / 18,
          seekTime := (((s.reg .x).toNat / 18 : Nat) - (f.track : Int)).natAbs * Config.openSeekPerTrack }) ∧
        t.queue = s.queue ∧ t.onFire = s.onFire)

/-- R305, R309, R310, R312: HWI on a floppy controller with A = 3. Write-protected media is rejected first, then media that is not
ready, then a request out of bounds; a rejection writes neither the image nor memory. Otherwise the whole sector is in the image, the
rest of the image is as it was, B is 1 and memory is unchanged. -/
def Obligations.HwiFloppyWrite : Prop :=
  ∀ (a : SrcOperand) (s : State) (f : Floppy), s.devices[(argVal a s).toNat]? = some (.floppy f) → s.reg .a = 3 →
    ∃ t, exec (.hwi a) s = .next t ∧ PointersOf (afterSrc a s) t ∧ t.ia = s.ia ∧ t.ien = s.ien ∧ t.iaq = s.iaq ∧
      t.status = s.status ∧ t.sleepCycles = 3 + costA a ∧ SameMemory s t ∧
      (∀ e, (e = if f.state = .readyWriteProtected then FloppyError.writeProtected else if f.state = .noMedia then .noMedia
          else if f.state = .busy then .busy else .badSector) →
        (f.state ≠ .ready ∨ 1440 ≤ (s.reg .x).toNat ∨ 65536 < (s.reg .y).toNat + 512) →
        (∀ r, t.reg r = if r = .b then 0 else s.reg r) ∧
        t.devices = s.devices.set (argVal a s).toNat (.floppy { f with error := e }) ∧
        Enqueued (if e ≠ f.error ∧ f.msg ≠ 0 then [f.msg] else []) s t) ∧
      (f.state = .ready → (s.reg .x).toNat < 1440 → (s.reg .y).toNat + 512 ≤ 65536 →
        (∀ r, t.reg r = if r = .b then 1 else s.reg r) ∧ t.queue = s.queue ∧ t.onFire = s.onFire ∧
        ∃ img, (∀ k, Cells.read img k =
            if (s.reg .x).toNat * 512 ≤ k ∧ k < (s.reg .x).toNat * 512 + 512 then
              s.readMem (s.reg .y + BitVec.ofNat 16 (k - (s.reg .x).toNat * 512))
            else Cells.read (f.image.getD []) k) ∧
          t.devices = s.devices.set (argVal a s).toNat (.floppy { f with
            image := some img,
            track := (s.reg .x).toNat / 18,
            seekTime := (((s.reg .x).toNat / 18 : Nat) - (f.track : Int)).natAbs * Config.openSeekPerTrack }))

/-- R352, R353: HWI on a display polls with A = 0 and changes nothing with any other A. -/
def Obligations.HwiOnDisplay : Prop :=
  ∀ (a : SrcOperand) (s : State) (d : Display), s.devices[(argVal a s).toNat]? = some (.display d) →
    ∃ t, exec (.hwi a) s = .next t ∧ SameMemory s t ∧ PointersOf (afterSrc a s) t ∧ t.ia = s.ia ∧ t.ien = s.ien ∧
      t.iaq = s.iaq ∧ t.queue = s.queue ∧ t.onFire = s.onFire ∧ t.status = s.status ∧ t.sleepCycles = 3 + costA a ∧
      (∀ r, t.reg r =
        if r = .b ∧ s.reg .a = 0 then (match d.state with | .noData => 0 | .running => 1 | .turning => 2)
        else if r = .c ∧ s.reg .a = 0 then (match d.error with | .none => 0 | .broken => 0xFFFF)
        else s.reg r) ∧
      t.devices = s.devices.set (argVal a s).toNat (.display (if s.reg .a = 0 then { d with error := .none } else d))

/-- R261, R262, R372: a reserved encoding resolves its operands and changes nothing else; the status names the word and the address it
was fetched from; it costs 1 plus operands and execution goes on. -/
def Obligations.ReservedEncodingsAreDecodeErrors : Prop :=
  ∀ (b : DstOperand) (a : SrcOperand) (s : State),
    (∀ p ∈ [(Instr.reservedBasic18 b a, (0x18 : BitVec 5)), (.reservedBasic19 b a, 0x19), (.reservedBasic1c b a, 0x1c),
      (.reservedBasic1d b a, 0x1d)],
      encode p.1 = encodeBasic p.2 b a ∧
      ∃ t, exec p.1 s = .next t ∧ t.status = .decodeError (basicWord p.2 b a) s.pc ∧ SameRegs s t ∧ SameMemory s t ∧
        PointersOf (resolved b a s) t ∧ SameControl (s.setStatus t.status) t ∧ t.sleepCycles = costA a + costB b) ∧
    (∀ p ∈ [(Instr.reservedSpecial00 a, (0x00 : BitVec 5)), (.reservedSpecial02 a, 0x02), (.reservedSpecial03 a, 0x03),
      (.reservedSpecial04 a, 0x04), (.reservedSpecial05 a, 0x05), (.reservedSpecial06 a, 0x06), (.reservedSpecial07 a, 0x07),
      (.reservedSpecial0d a, 0x0d), (.reservedSpecial0e a, 0x0e), (.reservedSpecial0f a, 0x0f), (.reservedSpecial13 a, 0x13),
      (.reservedSpecial14 a, 0x14), (.reservedSpecial15 a, 0x15), (.reservedSpecial16 a, 0x16), (.reservedSpecial17 a, 0x17),
      (.reservedSpecial18 a, 0x18), (.reservedSpecial19 a, 0x19), (.reservedSpecial1a a, 0x1a), (.reservedSpecial1b a, 0x1b),
      (.reservedSpecial1c a, 0x1c), (.reservedSpecial1d a, 0x1d), (.reservedSpecial1e a, 0x1e), (.reservedSpecial1f a, 0x1f)],
      encode p.1 = encodeSpecial p.2 a ∧
      ∃ t, exec p.1 s = .next t ∧ t.status = .decodeError (specialWord p.2 a) s.pc ∧ SameRegs s t ∧ SameMemory s t ∧
        PointersOf (afterSrc a s) t ∧ SameControl (s.setStatus t.status) t ∧ t.sleepCycles = costA a)

/-! ### Interrupts and the fatal state -/

/-- R363, R368: `Enqueue` does nothing on fire, sets the CPU on fire when 256 messages are pending, and otherwise appends; nothing else
changes, whatever IA and the two flags are. -/
def Obligations.EnqueueRule : Prop :=
  ∀ (s : State) (m : Word),
    SameRegs s (s.enqueue m) ∧ SameMemory s (s.enqueue m) ∧ PointersOf s (s.enqueue m) ∧
    SameControl ((s.setQueue (s.enqueue m).queue).setOnFire (s.enqueue m).onFire) (s.enqueue m) ∧
    (s.enqueue m).sleepCycles = s.sleepCycles ∧
    (s.onFire = true → (s.enqueue m).queue = s.queue ∧ (s.enqueue m).onFire = true) ∧
    (s.onFire = false → 256 ≤ s.queue.length → (s.enqueue m).queue = s.queue ∧ (s.enqueue m).onFire = true) ∧
    (s.onFire = false → s.queue.length < 256 → (s.enqueue m).queue = s.queue ++ [m] ∧ (s.enqueue m).onFire = false)

/-- R364, R365: sub-step 4 changes the state exactly when the CPU is not on fire, `ien` is set, IA is not 0, `iaq` is clear and a
message is pending; then the head message is removed, PC and A are pushed, delivery is held off, PC is IA and A is the message, and
nothing else changes, `sleep_cycles` included. -/
def Obligations.DeliveryConditionAndAction : Prop :=
  ∀ s : State,
    (s.deliver ≠ s ↔ s.onFire = false ∧ s.ien = true ∧ s.ia ≠ 0 ∧ s.iaq = false ∧ s.queue ≠ []) ∧
    (∀ m rest, s.queue = m :: rest → s.deliver ≠ s →
      (∀ r, s.deliver.reg r = if r = .a then m else s.reg r) ∧ s.deliver.pc = s.ia ∧ s.deliver.sp = s.sp - 2 ∧
      s.deliver.ex = s.ex ∧ s.deliver.iaq = true ∧ s.deliver.queue = rest ∧ s.deliver.ia = s.ia ∧ s.deliver.ien = s.ien ∧
      s.deliver.onFire = s.onFire ∧ s.deliver.devices = s.devices ∧ s.deliver.status = s.status ∧
      s.deliver.sleepCycles = s.sleepCycles ∧
      ∀ n, s.deliver.readMem n = if n = s.sp - 2 then s.reg .a else if n = s.sp - 1 then s.pc else s.readMem n)

/-- R366: RFI restores exactly what delivery saved: after a delivery, an RFI whose operand moves neither SP nor memory gives back every
register, PC, SP and EX, with `iaq` clear and the delivered message gone. -/
def Obligations.RfiUndoesDelivery : Prop :=
  ∀ (s : State) (m : Word) (rest : List Word) (a : SrcOperand), s.queue = m :: rest → s.deliver ≠ s → a ≠ .pop →
    ∃ t, exec (.rfi a) s.deliver = .next t ∧ SameRegs s t ∧ PointersOf s t ∧ t.iaq = false ∧ t.iaq = s.iaq ∧ t.ia = s.ia ∧
      t.ien = s.ien ∧ t.queue = rest ∧ (∀ n, n ≠ s.sp - 1 → n ≠ s.sp - 2 → t.readMem n = s.readMem n)

/-- R33, R133, R368, R369: no call and no host operation clears the fatal bit, and a call or a host operation that sets it leaves 256
messages pending. -/
def Obligations.FireIsPermanentAndNeedsFullQueue : Prop :=
  (∀ s t : State, step s = .next t → s.onFire = true → t.onFire = true) ∧
  (∀ (op : HostOp) (s : State), s.onFire = true → (hostOp op s).1.onFire = true) ∧
  (∀ s t : State, step s = .next t → s.onFire = false → t.onFire = true → 256 ≤ t.queue.length) ∧
  (∀ (op : HostOp) (s : State), s.onFire = false → (hostOp op s).1.onFire = true → 256 ≤ (hostOp op s).1.queue.length)

/-! ### Host operations and reset -/

/-- R40, R400: every piece of state after construction. -/
def Obligations.ResetValues : Prop :=
  (∀ r, State.reset.reg r = 0) ∧ State.reset.pc = 0 ∧ State.reset.sp = 0 ∧ State.reset.ex = 0 ∧ State.reset.ia = 0 ∧
  (∀ n, State.reset.readMem n = 0) ∧ State.reset.ien = false ∧ State.reset.iaq = false ∧ State.reset.queue = [] ∧
  State.reset.onFire = false ∧ State.reset.sleepCycles = 0 ∧ State.reset.devices = []

/-- R131, R132, R129, R133, R282: `reset()` clears everything but the fatal bit and the devices; `interrupt(message)` is `Enqueue` and nothing
else; `attach_device` appends the device as created and answers the index, or is refused at 65535 devices; a direct device call sets the
listed registers, the last value listed for a register standing, hands the device the registers and memory as its view, and enqueues
what it returns, or is refused where no such device is attached. (That a device is created and handed over with nothing in between is
the model's choice, log entry 17; so are the direct call's setting of registers and its refusal, log entry 12, and that it leaves the
status alone, log entry 2.) -/
def Obligations.HostResetInterruptAttach : Prop :=
  ∀ s : State,
    ((∀ r, (hostOp .reset s).1.reg r = 0) ∧ (hostOp .reset s).1.pc = 0 ∧ (hostOp .reset s).1.sp = 0 ∧
      (hostOp .reset s).1.ex = 0 ∧ (hostOp .reset s).1.ia = 0 ∧ (∀ n, (hostOp .reset s).1.readMem n = 0) ∧
      (hostOp .reset s).1.ien = false ∧ (hostOp .reset s).1.iaq = false ∧ (hostOp .reset s).1.queue = [] ∧
      (hostOp .reset s).1.sleepCycles = 0 ∧ (hostOp .reset s).1.onFire = s.onFire ∧
      (hostOp .reset s).1.devices = s.devices) ∧
    (∀ m, (hostOp (.interrupt m) s).1 = s.enqueue m) ∧
    (∀ d, s.devices.length < 65535 →
      hostOp (.attach d) s = (s.setDevices (s.devices ++ [d.create]), .attached s.devices.length)) ∧
    (∀ d, 65535 ≤ s.devices.length → hostOp (.attach d) s = (s, .refused)) ∧
    (∀ n args d, s.devices[n]? = some d →
      ∃ v t, (∀ r, v.regs.get r = (args.reverse.lookup r).getD (s.reg r)) ∧
        v.pc = s.pc ∧ v.sp = s.sp ∧ v.ex = s.ex ∧ v.ia = s.ia ∧ v.mem = s.mem ∧
        hostOp (.callDevice n args) s = (t, .done) ∧ t.view = (deviceInterrupt d v).2.1 ∧
        t.devices = s.devices.set n (deviceInterrupt d v).1 ∧ Enqueued (deviceInterrupt d v).2.2 s t ∧
        t.ien = s.ien ∧ t.iaq = s.iaq ∧ t.sleepCycles = s.sleepCycles ∧ t.status = s.status) ∧
    (∀ n args, s.devices.length ≤ n → hostOp (.callDevice n args) s = (s, .refused))

/-- R130: `flash` copies the words to address 0 upward and changes nothing else; more than 65536 words are refused and nothing changes.
(That the frame takes in the status of the last call is the model's choice, log entry 2.) -/
def Obligations.FlashCopiesOrRejects : Prop :=
  ∀ (ws : List Word) (s : State),
    (ws.length ≤ 65536 →
      (hostOp (.flash ws) s).2 = .done ∧
      (∀ n : Word, (hostOp (.flash ws) s).1.readMem n = if n.toNat < ws.length then ws.getD n.toNat 0 else s.readMem n) ∧
      SameRegs s (hostOp (.flash ws) s).1 ∧ PointersOf s (hostOp (.flash ws) s).1 ∧
      SameControl s (hostOp (.flash ws) s).1 ∧ (hostOp (.flash ws) s).1.sleepCycles = s.sleepCycles) ∧
    (65536 < ws.length → hostOp (.flash ws) s = (s, .refused))

/-- R304, R305: `insert` into an empty floppy controller and `eject` from a loaded one change its state, raise its message if it has
one, and touch no register and no memory word, none of IA and the two flags, no owed cycle and no status; in the other states they are
refused and change nothing. The latch is kept (log entry 9), an image outside the geometry, or not in the canonical form of the
list, is refused (log entry 14), both act on a CPU on fire (log entry 16) and leave the status of the last call alone (log entry 2):
these four are the model's choices. -/
def Obligations.InsertAndEject : Prop :=
  ∀ (s : State) (n : Nat) (f : Floppy), s.devices[n]? = some (.floppy f) →
    (∀ (img : Image) (wp : Bool), f.state = .noMedia → Image.wf img →
      (hostOp (.insert n img wp) s).2 = .done ∧
      SameRegs s (hostOp (.insert n img wp) s).1 ∧ SameMemory s (hostOp (.insert n img wp) s).1 ∧
      PointersOf s (hostOp (.insert n img wp) s).1 ∧ SameInterruptControl s (hostOp (.insert n img wp) s).1 ∧
      (hostOp (.insert n img wp) s).1.sleepCycles = s.sleepCycles ∧ (hostOp (.insert n img wp) s).1.status = s.status ∧
      (hostOp (.insert n img wp) s).1.devices = s.devices.set n (.floppy { f with
        state := if wp then .readyWriteProtected else .ready, image := some img }) ∧
      Enqueued (if f.msg ≠ 0 then [f.msg] else []) s (hostOp (.insert n img wp) s).1) ∧
    (∀ (img : Image) (wp : Bool), f.state ≠ .noMedia → hostOp (.insert n img wp) s = (s, .refused)) ∧
    (∀ (img : Image) (wp : Bool), f.state = .noMedia → ¬ Image.wf img → hostOp (.insert n img wp) s = (s, .refused)) ∧
    (f.state ≠ .noMedia →
      (hostOp (.eject n) s).2 = .image f.image ∧
      SameRegs s (hostOp (.eject n) s).1 ∧ SameMemory s (hostOp (.eject n) s).1 ∧ PointersOf s (hostOp (.eject n) s).1 ∧
      SameInterruptControl s (hostOp (.eject n) s).1 ∧ (hostOp (.eject n) s).1.sleepCycles = s.sleepCycles ∧
      (hostOp (.eject n) s).1.status = s.status ∧
      (hostOp (.eject n) s).1.devices = s.devices.set n (.floppy { f with state := .noMedia, image := none }) ∧
      Enqueued (if f.msg ≠ 0 then [f.msg] else []) s (hostOp (.eject n) s).1) ∧
    (f.state = .noMedia → hostOp (.eject n) s = (s, .refused))

/-! ### Whole-machine rules -/

/-- The invariant holds after construction (R38, R40). -/
def Obligations.ResetHasInvariant : Prop := State.reset.Inv

/-- Every call keeps the invariant (R32, R35, R38, R300 to R303, R331, R353). -/
def Obligations.StepKeepsInvariant : Prop := ∀ s t : State, s.Inv → step s = .next t → t.Inv

/-- Every host operation keeps the invariant (R129 to R132, R289, R304). That `attach_device` does rests on the device's coming in its
initial state, log entry 17. -/
def Obligations.HostOpsKeepInvariant : Prop :=
  ∀ (op : HostOp) (s : State), s.Inv → (hostOp op s).1.Inv

/-- R35, R36, R281: a call neither adds nor removes a device, and the device at each index keeps its kind and its identity. -/
def Obligations.DeviceListNeverChanges : Prop :=
  ∀ s t : State, step s = .next t →
    t.devices.map deviceIdentity = s.devices.map deviceIdentity ∧
    ∀ (n : Nat) (d : Device), s.devices[n]? = some d → ∃ d', t.devices[n]? = some d' ∧ SameKind d d'

/-- R27: EX is written as a side effect by the eleven listed opcodes only: any other instruction whose result does not go to EX leaves
EX as it was. (HWI on a device that is none of the reference devices may write EX through the view, R283.) -/
def Obligations.ExOnlyByListedOpcodes : Prop :=
  ∀ (i : Instr) (s t : State), exec i s = .next t → writesEx i = false → targetOf s i ≠ some .ex →
    (∀ a id kind msg priv, i = .hwi a → s.devices[(argVal a s).toNat]? ≠ some (.external id kind msg priv)) → t.ex = s.ex

/-- R29, R30, R31: among instructions the enable flag is written by IAS alone, the queueing flag by IAQ and RFI alone, and IA by IAS
alone but for a device that writes IA through the view (R283). -/
def Obligations.InterruptStateOnlyByItsInstructions : Prop :=
  ∀ (i : Instr) (s t : State), exec i s = .next t →
    ((∀ a, i ≠ .ias a) → t.ien = s.ien) ∧
    ((∀ a, i ≠ .iaq a) → (∀ a, i ≠ .rfi a) → t.iaq = s.iaq) ∧
    ((∀ a, i ≠ .ias a) →
      (∀ a id kind msg priv, i = .hwi a → s.devices[(argVal a s).toNat]? ≠ some (.external id kind msg priv)) → t.ia = s.ia)

/-- R260, R282, R283, R285: HWI on a device that is none of the reference devices completes; the device's writes reach the twelve
registers and memory and nothing else, its messages are enqueued unless the interrupt message the call leaves it with is zero, and every
other device stays. (That the message after the call counts is the model's choice, log entry 10.) -/
def Obligations.HwiOnExternalDevice : Prop :=
  ∀ (a : SrcOperand) (s : State) (id : Identity) (kind : Nat) (msg : Word) (priv : List Word) (r : ExternalReply),
    s.devices[(argVal a s).toNat]? = some (.external id kind msg priv) →
    r = Config.externalInterrupt kind msg priv (afterSrc a s).view →
    ∃ t, exec (.hwi a) s = .next t ∧
      t.view = r.writes.foldl View.apply (afterSrc a s).view ∧
      Enqueued (if r.msg = 0 then [] else r.messages) s t ∧
      t.devices = s.devices.set (argVal a s).toNat (.external id kind r.msg r.priv) ∧
      t.ien = s.ien ∧ t.iaq = s.iaq ∧ t.status = s.status ∧
      t.sleepCycles = 3 + Config.externalExtraCycles kind + costA a

/-- R289, with R301, R331, R351 and R403: a reference device is attached in its own initial state, a device of another variant with
message 0, and the CPU's `reset()` changes no device. (That the host does nothing to a device before it attaches it is the model's
choice, log entry 17.) -/
def Obligations.AttachedDeviceIsInItsInitialState : Prop :=
  ∀ (s : State) (id : Identity) (kind : Nat) (priv : List Word), s.devices.length < 65535 →
    (∀ p ∈ [
      (NewDevice.floppy, Device.floppy
        { state := .noMedia, error := .none, msg := 0, image := none, track := 0, seekTime := 0 }),
      (.clock, .clock { period := 0, cycles := 0, ticks := 0, msg := 0 }),
      (.display, .display { state := .noData, error := .none }),
      (.external id kind priv, .external id kind 0 priv)],
      (hostOp (.attach p.1) s).1.devices = s.devices ++ [p.2] ∧
      (hostOp .reset (hostOp (.attach p.1) s).1).1.devices = s.devices ++ [p.2])

/-- R285, R305, R337, R354: a device whose interrupt message is zero returns no message, from `cycle()`, from an `interrupt` that leaves
it with the message zero, and from `insert` and `eject`; and `cycle()` sets no interrupt message. (For a device outside the three, that
the message `interrupt` leaves it with is the one that counts, and that `cycle()` sets none, are the model's choices, log entry 10.) -/
def Obligations.ZeroMessageDeviceIsSilent : Prop :=
  (∀ (d : Device) (v : View), deviceMessage (deviceInterrupt d v).1 = 0 → (deviceInterrupt d v).2.2 = []) ∧
  (∀ d : Device, deviceMessage d = 0 → (deviceCycle d).2 = []) ∧
  (∀ d : Device, deviceMessage (deviceCycle d).1 = deviceMessage d) ∧
  (∀ (s : State) (n : Nat) (f : Floppy) (img : Image) (wp : Bool), s.devices[n]? = some (.floppy f) →
    deviceMessage (.floppy f) = 0 →
    (hostOp (.insert n img wp) s).1.queue = s.queue ∧ (hostOp (.eject n) s).1.queue = s.queue)
end

