-- ==== Sys2Proof/Laws/State.lean ====
section
/-! SUPPORT. One lemma per field per update of State, true by rfl, so that no later proof unfolds a record update; what reading a
register answers after a write. -/

namespace Sys2Proof.Machine

section
variable (s : State)

/-! setReg -/

@[simp] theorem State.setReg_regs (r : Reg) (v : Word) : (s.setReg r v).regs = s.regs.set r v := rfl
@[simp] theorem State.setReg_pc (r : Reg) (v : Word) : (s.setReg r v).pc = s.pc := rfl
@[simp] theorem State.setReg_sp (r : Reg) (v : Word) : (s.setReg r v).sp = s.sp := rfl
@[simp] theorem State.setReg_ex (r : Reg) (v : Word) : (s.setReg r v).ex = s.ex := rfl
@[simp] theorem State.setReg_ia (r : Reg) (v : Word) : (s.setReg r v).ia = s.ia := rfl
@[simp] theorem State.setReg_mem (r : Reg) (v : Word) : (s.setReg r v).mem = s.mem := rfl
@[simp] theorem State.setReg_ien (r : Reg) (v : Word) : (s.setReg r v).ien = s.ien := rfl
@[simp] theorem State.setReg_iaq (r : Reg) (v : Word) : (s.setReg r v).iaq = s.iaq := rfl
@[simp] theorem State.setReg_queue (r : Reg) (v : Word) : (s.setReg r v).queue = s.queue := rfl
@[simp] theorem State.setReg_onFire (r : Reg) (v : Word) : (s.setReg r v).onFire = s.onFire := rfl
@[simp] theorem State.setReg_sleepCycles (r : Reg) (v : Word) : (s.setReg r v).sleepCycles = s.sleepCycles := rfl
@[simp] theorem State.setReg_devices (r : Reg) (v : Word) : (s.setReg r v).devices = s.devices := rfl
@[simp] theorem State.setReg_status (r : Reg) (v : Word) : (s.setReg r v).status = s.status := rfl
@[simp] theorem State.setReg_readMem (r : Reg) (v : Word) (n : Word) : (s.setReg r v).readMem n = s.readMem n := rfl

/-! setPc -/

@[simp] theorem State.setPc_regs (v : Word) : (s.setPc v).regs = s.regs := rfl
@[simp] theorem State.setPc_pc (v : Word) : (s.setPc v).pc = v := rfl
@[simp] theorem State.setPc_sp (v : Word) : (s.setPc v).sp = s.sp := rfl
@[simp] theorem State.setPc_ex (v : Word) : (s.setPc v).ex = s.ex := rfl
@[simp] theorem State.setPc_ia (v : Word) : (s.setPc v).ia = s.ia := rfl
@[simp] theorem State.setPc_mem (v : Word) : (s.setPc v).mem = s.mem := rfl
@[simp] theorem State.setPc_ien (v : Word) : (s.setPc v).ien = s.ien := rfl
@[simp] theorem State.setPc_iaq (v : Word) : (s.setPc v).iaq = s.iaq := rfl
@[simp] theorem State.setPc_queue (v : Word) : (s.setPc v).queue = s.queue := rfl
@[simp] theorem State.setPc_onFire (v : Word) : (s.setPc v).onFire = s.onFire := rfl
@[simp] theorem State.setPc_sleepCycles (v : Word) : (s.setPc v).sleepCycles = s.sleepCycles := rfl
@[simp] theorem State.setPc_devices (v : Word) : (s.setPc v).devices = s.devices := rfl
@[simp] theorem State.setPc_status (v : Word) : (s.setPc v).status = s.status := rfl
@[simp] theorem State.setPc_reg (v : Word) (q : Reg) : (s.setPc v).reg q = s.reg q := rfl
@[simp] theorem State.setPc_readMem (v : Word) (n : Word) : (s.setPc v).readMem n = s.readMem n := rfl

/-! setSp -/

@[simp] theorem State.setSp_regs (v : Word) : (s.setSp v).regs = s.regs := rfl
@[simp] theorem State.setSp_pc (v : Word) : (s.setSp v).pc = s.pc := rfl
@[simp] theorem State.setSp_sp (v : Word) : (s.setSp v).sp = v := rfl
@[simp] theorem State.setSp_ex (v : Word) : (s.setSp v).ex = s.ex := rfl
@[simp] theorem State.setSp_ia (v : Word) : (s.setSp v).ia = s.ia := rfl
@[simp] theorem State.setSp_mem (v : Word) : (s.setSp v).mem = s.mem := rfl
@[simp] theorem State.setSp_ien (v : Word) : (s.setSp v).ien = s.ien := rfl
@[simp] theorem State.setSp_iaq (v : Word) : (s.setSp v).iaq = s.iaq := rfl
@[simp] theorem State.setSp_queue (v : Word) : (s.setSp v).queue = s.queue := rfl
@[simp] theorem State.setSp_onFire (v : Word) : (s.setSp v).onFire = s.onFire := rfl
@[simp] theorem State.setSp_sleepCycles (v : Word) : (s.setSp v).sleepCycles = s.sleepCycles := rfl
@[simp] theorem State.setSp_devices (v : Word) : (s.setSp v).devices = s.devices := rfl
@[simp] theorem State.setSp_status (v : Word) : (s.setSp v).status = s.status := rfl
@[simp] theorem State.setSp_reg (v : Word) (q : Reg) : (s.setSp v).reg q = s.reg q := rfl
@[simp] theorem State.setSp_readMem (v : Word) (n : Word) : (s.setSp v).readMem n = s.readMem n := rfl

/-! setEx -/

@[simp] theorem State.setEx_regs (v : Word) : (s.setEx v).regs = s.regs := rfl
@[simp] theorem State.setEx_pc (v : Word) : (s.setEx v).pc = s.pc := rfl
@[simp] theorem State.setEx_sp (v : Word) : (s.setEx v).sp = s.sp := rfl
@[simp] theorem State.setEx_ex (v : Word) : (s.setEx v).ex = v := rfl
@[simp] theorem State.setEx_ia (v : Word) : (s.setEx v).ia = s.ia := rfl
@[simp] theorem State.setEx_mem (v : Word) : (s.setEx v).mem = s.mem := rfl
@[simp] theorem State.setEx_ien (v : Word) : (s.setEx v).ien = s.ien := rfl
@[simp] theorem State.setEx_iaq (v : Word) : (s.setEx v).iaq = s.iaq := rfl
@[simp] theorem State.setEx_queue (v : Word) : (s.setEx v).queue = s.queue := rfl
@[simp] theorem State.setEx_onFire (v : Word) : (s.setEx v).onFire = s.onFire := rfl
@[simp] theorem State.setEx_sleepCycles (v : Word) : (s.setEx v).sleepCycles = s.sleepCycles := rfl
@[simp] theorem State.setEx_devices (v : Word) : (s.setEx v).devices = s.devices := rfl
@[simp] theorem State.setEx_status (v : Word) : (s.setEx v).status = s.status := rfl
@[simp] theorem State.setEx_reg (v : Word) (q : Reg) : (s.setEx v).reg q = s.reg q := rfl
@[simp] theorem State.setEx_readMem (v : Word) (n : Word) : (s.setEx v).readMem n = s.readMem n := rfl

/-! setIa -/

@[simp] theorem State.setIa_regs (v : Word) : (s.setIa v).regs = s.regs := rfl
@[simp] theorem State.setIa_pc (v : Word) : (s.setIa v).pc = s.pc := rfl
@[simp] theorem State.setIa_sp (v : Word) : (s.setIa v).sp = s.sp := rfl
@[simp] theorem State.setIa_ex (v : Word) : (s.setIa v).ex = s.ex := rfl
@[simp] theorem State.setIa_ia (v : Word) : (s.setIa v).ia = v := rfl
@[simp] theorem State.setIa_mem (v : Word) : (s.setIa v).mem = s.mem := rfl
@[simp] theorem State.setIa_ien (v : Word) : (s.setIa v).ien = s.ien := rfl
@[simp] theorem State.setIa_iaq (v : Word) : (s.setIa v).iaq = s.iaq := rfl
@[simp] theorem State.setIa_queue (v : Word) : (s.setIa v).queue = s.queue := rfl
@[simp] theorem State.setIa_onFire (v : Word) : (s.setIa v).onFire = s.onFire := rfl
@[simp] theorem State.setIa_sleepCycles (v : Word) : (s.setIa v).sleepCycles = s.sleepCycles := rfl
@[simp] theorem State.setIa_devices (v : Word) : (s.setIa v).devices = s.devices := rfl
@[simp] theorem State.setIa_status (v : Word) : (s.setIa v).status = s.status := rfl
@[simp] theorem State.setIa_reg (v : Word) (q : Reg) : (s.setIa v).reg q = s.reg q := rfl
@[simp] theorem State.setIa_readMem (v : Word) (n : Word) : (s.setIa v).readMem n = s.readMem n := rfl

/-! setMem -/

@[simp] theorem State.setMem_regs (v : Memory) : (s.setMem v).regs = s.regs := rfl
@[simp] theorem State.setMem_pc (v : Memory) : (s.setMem v).pc = s.pc := rfl
@[simp] theorem State.setMem_sp (v : Memory) : (s.setMem v).sp = s.sp := rfl
@[simp] theorem State.setMem_ex (v : Memory) : (s.setMem v).ex = s.ex := rfl
@[simp] theorem State.setMem_ia (v : Memory) : (s.setMem v).ia = s.ia := rfl
@[simp] theorem State.setMem_mem (v : Memory) : (s.setMem v).mem = v := rfl
@[simp] theorem State.setMem_ien (v : Memory) : (s.setMem v).ien = s.ien := rfl
@[simp] theorem State.setMem_iaq (v : Memory) : (s.setMem v).iaq = s.iaq := rfl
@[simp] theorem State.setMem_queue (v : Memory) : (s.setMem v).queue = s.queue := rfl
@[simp] theorem State.setMem_onFire (v : Memory) : (s.setMem v).onFire = s.onFire := rfl
@[simp] theorem State.setMem_sleepCycles (v : Memory) : (s.setMem v).sleepCycles = s.sleepCycles := rfl
@[simp] theorem State.setMem_devices (v : Memory) : (s.setMem v).devices = s.devices := rfl
@[simp] theorem State.setMem_status (v : Memory) : (s.setMem v).status = s.status := rfl
@[simp] theorem State.setMem_reg (v : Memory) (q : Reg) : (s.setMem v).reg q = s.reg q := rfl

/-! setIen -/

@[simp] theorem State.setIen_regs (v : Bool) : (s.setIen v).regs = s.regs := rfl
@[simp] theorem State.setIen_pc (v : Bool) : (s.setIen v).pc = s.pc := rfl
@[simp] theorem State.setIen_sp (v : Bool) : (s.setIen v).sp = s.sp := rfl
@[simp] theorem State.setIen_ex (v : Bool) : (s.setIen v).ex = s.ex := rfl
@[simp] theorem State.setIen_ia (v : Bool) : (s.setIen v).ia = s.ia := rfl
@[simp] theorem State.setIen_mem (v : Bool) : (s.setIen v).mem = s.mem := rfl
@[simp] theorem State.setIen_ien (v : Bool) : (s.setIen v).ien = v := rfl
@[simp] theorem State.setIen_iaq (v : Bool) : (s.setIen v).iaq = s.iaq := rfl
@[simp] theorem State.setIen_queue (v : Bool) : (s.setIen v).queue = s.queue := rfl
@[simp] theorem State.setIen_onFire (v : Bool) : (s.setIen v).onFire = s.onFire := rfl
@[simp] theorem State.setIen_sleepCycles (v : Bool) : (s.setIen v).sleepCycles = s.sleepCycles := rfl
@[simp] theorem State.setIen_devices (v : Bool) : (s.setIen v).devices = s.devices := rfl
@[simp] theorem State.setIen_status (v : Bool) : (s.setIen v).status = s.status := rfl
@[simp] theorem State.setIen_reg (v : Bool) (q : Reg) : (s.setIen v).reg q = s.reg q := rfl
@[simp] theorem State.setIen_readMem (v : Bool) (n : Word) : (s.setIen v).readMem n = s.readMem n := rfl

/-! setIaq -/

@[simp] theorem State.setIaq_regs (v : Bool) : (s.setIaq v).regs = s.regs := rfl
@[simp] theorem State.setIaq_pc (v : Bool) : (s.setIaq v).pc = s.pc := rfl
@[simp] theorem State.setIaq_sp (v : Bool) : (s.setIaq v).sp = s.sp := rfl
@[simp] theorem State.setIaq_ex (v : Bool) : (s.setIaq v).ex = s.ex := rfl
@[simp] theorem State.setIaq_ia (v : Bool) : (s.setIaq v).ia = s.ia := rfl
@[simp] theorem State.setIaq_mem (v : Bool) : (s.setIaq v).mem = s.mem := rfl
@[simp] theorem State.setIaq_ien (v : Bool) : (s.setIaq v).ien = s.ien := rfl
@[simp] theorem State.setIaq_iaq (v : Bool) : (s.setIaq v).iaq = v := rfl
@[simp] theorem State.setIaq_queue (v : Bool) : (s.setIaq v).queue = s.queue := rfl
@[simp] theorem State.setIaq_onFire (v : Bool) : (s.setIaq v).onFire = s.onFire := rfl
@[simp] theorem State.setIaq_sleepCycles (v : Bool) : (s.setIaq v).sleepCycles = s.sleepCycles := rfl
@[simp] theorem State.setIaq_devices (v : Bool) : (s.setIaq v).devices = s.devices := rfl
@[simp] theorem State.setIaq_status (v : Bool) : (s.setIaq v).status = s.status := rfl
@[simp] theorem State.setIaq_reg (v : Bool) (q : Reg) : (s.setIaq v).reg q = s.reg q := rfl
@[simp] theorem State.setIaq_readMem (v : Bool) (n : Word) : (s.setIaq v).readMem n = s.readMem n := rfl

/-! setQueue -/

@[simp] theorem State.setQueue_regs (v : List Word) : (s.setQueue v).regs = s.regs := rfl
@[simp] theorem State.setQueue_pc (v : List Word) : (s.setQueue v).pc = s.pc := rfl
@[simp] theorem State.setQueue_sp (v : List Word) : (s.setQueue v).sp = s.sp := rfl
@[simp] theorem State.setQueue_ex (v : List Word) : (s.setQueue v).ex = s.ex := rfl
@[simp] theorem State.setQueue_ia (v : List Word) : (s.setQueue v).ia = s.ia := rfl
@[simp] theorem State.setQueue_mem (v : List Word) : (s.setQueue v).mem = s.mem := rfl
@[simp] theorem State.setQueue_ien (v : List Word) : (s.setQueue v).ien = s.ien := rfl
@[simp] theorem State.setQueue_iaq (v : List Word) : (s.setQueue v).iaq = s.iaq := rfl
@[simp] theorem State.setQueue_queue (v : List Word) : (s.setQueue v).queue = v := rfl
@[simp] theorem State.setQueue_onFire (v : List Word) : (s.setQueue v).onFire = s.onFire := rfl
@[simp] theorem State.setQueue_sleepCycles (v : List Word) : (s.setQueue v).sleepCycles = s.sleepCycles := rfl
@[simp] theorem State.setQueue_devices (v : List Word) : (s.setQueue v).devices = s.devices := rfl
@[simp] theorem State.setQueue_status (v : List Word) : (s.setQueue v).status = s.status := rfl
@[simp] theorem State.setQueue_reg (v : List Word) (q : Reg) : (s.setQueue v).reg q = s.reg q := rfl
@[simp] theorem State.setQueue_readMem (v : List Word) (n : Word) : (s.setQueue v).readMem n = s.readMem n := rfl

/-! setOnFire -/

@[simp] theorem State.setOnFire_regs (v : Bool) : (s.setOnFire v).regs = s.regs := rfl
@[simp] theorem State.setOnFire_pc (v : Bool) : (s.setOnFire v).pc = s.pc := rfl
@[simp] theorem State.setOnFire_sp (v : Bool) : (s.setOnFire v).sp = s.sp := rfl
@[simp] theorem State.setOnFire_ex (v : Bool) : (s.setOnFire v).ex = s.ex := rfl
@[simp] theorem State.setOnFire_ia (v : Bool) : (s.setOnFire v).ia = s.ia := rfl
@[simp] theorem State.setOnFire_mem (v : Bool) : (s.setOnFire v).mem = s.mem := rfl
@[simp] theorem State.setOnFire_ien (v : Bool) : (s.setOnFire v).ien = s.ien := rfl
@[simp] theorem State.setOnFire_iaq (v : Bool) : (s.setOnFire v).iaq = s.iaq := rfl
@[simp] theorem State.setOnFire_queue (v : Bool) : (s.setOnFire v).queue = s.queue := rfl
@[simp] theorem State.setOnFire_onFire (v : Bool) : (s.setOnFire v).onFire = v := rfl
@[simp] theorem State.setOnFire_sleepCycles (v : Bool) : (s.setOnFire v).sleepCycles = s.sleepCycles := rfl
@[simp] theorem State.setOnFire_devices (v : Bool) : (s.setOnFire v).devices = s.devices := rfl
@[simp] theorem State.setOnFire_status (v : Bool) : (s.setOnFire v).status = s.status := rfl
@[simp] theorem State.setOnFire_reg (v : Bool) (q : Reg) : (s.setOnFire v).reg q = s.reg q := rfl
@[simp] theorem State.setOnFire_readMem (v : Bool) (n : Word) : (s.setOnFire v).readMem n = s.readMem n := rfl

/-! setSleep -/

@[simp] theorem State.setSleep_regs (v : Nat) : (s.setSleep v).regs = s.regs := rfl
@[simp] theorem State.setSleep_pc (v : Nat) : (s.setSleep v).pc = s.pc := rfl
@[simp] theorem State.setSleep_sp (v : Nat) : (s.setSleep v).sp = s.sp := rfl
@[simp] theorem State.setSleep_ex (v : Nat) : (s.setSleep v).ex = s.ex := rfl
@[simp] theorem State.setSleep_ia (v : Nat) : (s.setSleep v).ia = s.ia := rfl
@[simp] theorem State.setSleep_mem (v : Nat) : (s.setSleep v).mem = s.mem := rfl
@[simp] theorem State.setSleep_ien (v : Nat) : (s.setSleep v).ien = s.ien := rfl
@[simp] theorem State.setSleep_iaq (v : Nat) : (s.setSleep v).iaq = s.iaq := rfl
@[simp] theorem State.setSleep_queue (v : Nat) : (s.setSleep v).queue = s.queue := rfl
@[simp] theorem State.setSleep_onFire (v : Nat) : (s.setSleep v).onFire = s.onFire := rfl
@[simp] theorem State.setSleep_sleepCycles (v : Nat) : (s.setSleep v).sleepCycles = v := rfl
@[simp] theorem State.setSleep_devices (v : Nat) : (s.setSleep v).devices = s.devices := rfl
@[simp] theorem State.setSleep_status (v : Nat) : (s.setSleep v).status = s.status := rfl
@[simp] theorem State.setSleep_reg (v : Nat) (q : Reg) : (s.setSleep v).reg q = s.reg q := rfl
@[simp] theorem State.setSleep_readMem (v : Nat) (n : Word) : (s.setSleep v).readMem n = s.readMem n := rfl

/-! setDevices -/

@[simp] theorem State.setDevices_regs (v : List Device) : (s.setDevices v).regs = s.regs := rfl
@[simp] theorem State.setDevices_pc (v : List Device) : (s.setDevices v).pc = s.pc := rfl
@[simp] theorem State.setDevices_sp (v : List Device) : (s.setDevices v).sp = s.sp := rfl
@[simp] theorem State.setDevices_ex (v : List Device) : (s.setDevices v).ex = s.ex := rfl
@[simp] theorem State.setDevices_ia (v : List Device) : (s.setDevices v).ia = s.ia := rfl
@[simp] theorem State.setDevices_mem (v : List Device) : (s.setDevices v).mem = s.mem := rfl
@[simp] theorem State.setDevices_ien (v : List Device) : (s.setDevices v).ien = s.ien := rfl
@[simp] theorem State.setDevices_iaq (v : List Device) : (s.setDevices v).iaq = s.iaq := rfl
@[simp] theorem State.setDevices_queue (v : List Device) : (s.setDevices v).queue = s.queue := rfl
@[simp] theorem State.setDevices_onFire (v : List Device) : (s.setDevices v).onFire = s.onFire := rfl
@[simp] theorem State.setDevices_sleepCycles (v : List Device) : (s.setDevices v).sleepCycles = s.sleepCycles := rfl
@[simp] theorem State.setDevices_devices (v : List Device) : (s.setDevices v).devices = v := rfl
@[simp] theorem State.setDevices_status (v : List Device) : (s.setDevices v).status = s.status := rfl
@[simp] theorem State.setDevices_reg (v : List Device) (q : Reg) : (s.setDevices v).reg q = s.reg q := rfl
@[simp] theorem State.setDevices_readMem (v : List Device) (n : Word) : (s.setDevices v).readMem n = s.readMem n := rfl

/-! setStatus -/

@[simp] theorem State.setStatus_regs (v : Status) : (s.setStatus v).regs = s.regs := rfl
@[simp] theorem State.setStatus_pc (v : Status) : (s.setStatus v).pc = s.pc := rfl
@[simp] theorem State.setStatus_sp (v : Status) : (s.setStatus v).sp = s.sp := rfl
@[simp] theorem State.setStatus_ex (v : Status) : (s.setStatus v).ex = s.ex := rfl
@[simp] theorem State.setStatus_ia (v : Status) : (s.setStatus v).ia = s.ia := rfl
@[simp] theorem State.setStatus_mem (v : Status) : (s.setStatus v).mem = s.mem := rfl
@[simp] theorem State.setStatus_ien (v : Status) : (s.setStatus v).ien = s.ien := rfl
@[simp] theorem State.setStatus_iaq (v : Status) : (s.setStatus v).iaq = s.iaq := rfl
@[simp] theorem State.setStatus_queue (v : Status) : (s.setStatus v).queue = s.queue := rfl
@[simp] theorem State.setStatus_onFire (v : Status) : (s.setStatus v).onFire = s.onFire := rfl
@[simp] theorem State.setStatus_sleepCycles (v : Status) : (s.setStatus v).sleepCycles = s.sleepCycles := rfl
@[simp] theorem State.setStatus_devices (v : Status) : (s.setStatus v).devices = s.devices := rfl
@[simp] theorem State.setStatus_status (v : Status) : (s.setStatus v).status = v := rfl
@[simp] theorem State.setStatus_reg (v : Status) (q : Reg) : (s.setStatus v).reg q = s.reg q := rfl
@[simp] theorem State.setStatus_readMem (v : Status) (n : Word) : (s.setStatus v).readMem n = s.readMem n := rfl

/-! writeMem, push, drop and withView -/

@[simp] theorem State.writeMem_regs (a v : Word) : (s.writeMem a v).regs = s.regs := rfl
@[simp] theorem State.writeMem_pc (a v : Word) : (s.writeMem a v).pc = s.pc := rfl
@[simp] theorem State.writeMem_sp (a v : Word) : (s.writeMem a v).sp = s.sp := rfl
@[simp] theorem State.writeMem_ex (a v : Word) : (s.writeMem a v).ex = s.ex := rfl
@[simp] theorem State.writeMem_ia (a v : Word) : (s.writeMem a v).ia = s.ia := rfl
@[simp] theorem State.writeMem_mem (a v : Word) : (s.writeMem a v).mem = s.mem.write a v := rfl
@[simp] theorem State.writeMem_ien (a v : Word) : (s.writeMem a v).ien = s.ien := rfl
@[simp] theorem State.writeMem_iaq (a v : Word) : (s.writeMem a v).iaq = s.iaq := rfl
@[simp] theorem State.writeMem_queue (a v : Word) : (s.writeMem a v).queue = s.queue := rfl
@[simp] theorem State.writeMem_onFire (a v : Word) : (s.writeMem a v).onFire = s.onFire := rfl
@[simp] theorem State.writeMem_sleepCycles (a v : Word) : (s.writeMem a v).sleepCycles = s.sleepCycles := rfl
@[simp] theorem State.writeMem_devices (a v : Word) : (s.writeMem a v).devices = s.devices := rfl
@[simp] theorem State.writeMem_status (a v : Word) : (s.writeMem a v).status = s.status := rfl
@[simp] theorem State.writeMem_reg (a v : Word) (q : Reg) : (s.writeMem a v).reg q = s.reg q := rfl

@[simp] theorem State.push_regs (v : Word) : (s.push v).regs = s.regs := rfl
@[simp] theorem State.push_pc (v : Word) : (s.push v).pc = s.pc := rfl
@[simp] theorem State.push_sp (v : Word) : (s.push v).sp = s.sp - 1 := rfl
@[simp] theorem State.push_ex (v : Word) : (s.push v).ex = s.ex := rfl
@[simp] theorem State.push_ia (v : Word) : (s.push v).ia = s.ia := rfl
@[simp] theorem State.push_mem (v : Word) : (s.push v).mem = s.mem.write (s.sp - 1) v := rfl
@[simp] theorem State.push_ien (v : Word) : (s.push v).ien = s.ien := rfl
@[simp] theorem State.push_iaq (v : Word) : (s.push v).iaq = s.iaq := rfl
@[simp] theorem State.push_queue (v : Word) : (s.push v).queue = s.queue := rfl
@[simp] theorem State.push_onFire (v : Word) : (s.push v).onFire = s.onFire := rfl
@[simp] theorem State.push_sleepCycles (v : Word) : (s.push v).sleepCycles = s.sleepCycles := rfl
@[simp] theorem State.push_devices (v : Word) : (s.push v).devices = s.devices := rfl
@[simp] theorem State.push_status (v : Word) : (s.push v).status = s.status := rfl
@[simp] theorem State.push_reg (v : Word) (q : Reg) : (s.push v).reg q = s.reg q := rfl

@[simp] theorem State.drop_regs : s.drop.regs = s.regs := rfl
@[simp] theorem State.drop_pc : s.drop.pc = s.pc := rfl
@[simp] theorem State.drop_sp : s.drop.sp = s.sp + 1 := rfl
@[simp] theorem State.drop_ex : s.drop.ex = s.ex := rfl
@[simp] theorem State.drop_ia : s.drop.ia = s.ia := rfl
@[simp] theorem State.drop_mem : s.drop.mem = s.mem := rfl
@[simp] theorem State.drop_ien : s.drop.ien = s.ien := rfl
@[simp] theorem State.drop_iaq : s.drop.iaq = s.iaq := rfl
@[simp] theorem State.drop_queue : s.drop.queue = s.queue := rfl
@[simp] theorem State.drop_onFire : s.drop.onFire = s.onFire := rfl
@[simp] theorem State.drop_sleepCycles : s.drop.sleepCycles = s.sleepCycles := rfl
@[simp] theorem State.drop_devices : s.drop.devices = s.devices := rfl
@[simp] theorem State.drop_status : s.drop.status = s.status := rfl
@[simp] theorem State.drop_reg (q : Reg) : s.drop.reg q = s.reg q := rfl
@[simp] theorem State.drop_readMem (n : Word) : s.drop.readMem n = s.readMem n := rfl

@[simp] theorem State.withView_regs (v : View) : (s.withView v).regs = v.regs := rfl
@[simp] theorem State.withView_pc (v : View) : (s.withView v).pc = v.pc := rfl
@[simp] theorem State.withView_sp (v : View) : (s.withView v).sp = v.sp := rfl
@[simp] theorem State.withView_ex (v : View) : (s.withView v).ex = v.ex := rfl
@[simp] theorem State.withView_ia (v : View) : (s.withView v).ia = v.ia := rfl
@[simp] theorem State.withView_mem (v : View) : (s.withView v).mem = v.mem := rfl
@[simp] theorem State.withView_ien (v : View) : (s.withView v).ien = s.ien := rfl
@[simp] theorem State.withView_iaq (v : View) : (s.withView v).iaq = s.iaq := rfl
@[simp] theorem State.withView_queue (v : View) : (s.withView v).queue = s.queue := rfl
@[simp] theorem State.withView_onFire (v : View) : (s.withView v).onFire = s.onFire := rfl
@[simp] theorem State.withView_sleepCycles (v : View) : (s.withView v).sleepCycles = s.sleepCycles := rfl
@[simp] theorem State.withView_devices (v : View) : (s.withView v).devices = s.devices := rfl
@[simp] theorem State.withView_status (v : View) : (s.withView v).status = s.status := rfl
@[simp] theorem State.view_regs : s.view.regs = s.regs := rfl
@[simp] theorem State.view_pc : s.view.pc = s.pc := rfl
@[simp] theorem State.view_sp : s.view.sp = s.sp := rfl
@[simp] theorem State.view_ex : s.view.ex = s.ex := rfl
@[simp] theorem State.view_ia : s.view.ia = s.ia := rfl
@[simp] theorem State.view_mem : s.view.mem = s.mem := rfl

@[simp] theorem State.withView_view : s.withView s.view = s := rfl

end

/-! The register file -/

@[simp] theorem Regs.get_set (f : Regs) (r q : Reg) (v : Word) : (f.set r v).get q = if q = r then v else f.get q := by
  cases r <;> cases q <;> rfl

theorem Regs.ext_get {f g : Regs} (h : ∀ r, f.get r = g.get r) : f = g := by
  have ha := h .a
  have hb := h .b
  have hc := h .c
  have hx := h .x
  have hy := h .y
  have hz := h .z
  have hi := h .i
  have hj := h .j
  cases f
  cases g
  simp_all [Regs.get]

@[simp] theorem State.setReg_reg (s : State) (r q : Reg) (v : Word) : (s.setReg r v).reg q = if q = r then v else s.reg q :=
  Regs.get_set s.regs r q v

theorem State.reg_eq_of_regs_eq {s t : State} (h : t.regs = s.regs) (r : Reg) : t.reg r = s.reg r := by
  simp [State.reg, h]

theorem State.readMem_eq_of_mem_eq {s t : State} (h : t.mem = s.mem) (n : Word) : t.readMem n = s.readMem n := by
  simp [State.readMem, h]

end Sys2Proof.Machine
end

