-- ==== Sys2Proof/Laws/Memory.lean ====
section
/-! SUPPORT. Laws of the sparse store: read after write, and every operation keeps the canonical form. -/

namespace Sys2Proof.Machine

theorem Cells.read_erase (m : Cells) (n k : Nat) :
    Cells.read (Cells.erase m n) k = if k = n then unlistedWord else Cells.read m k := by
  induction m with
  | nil => simp [Cells.erase, Cells.read]
  | cons c t ih =>
    obtain ⟨j, w⟩ := c
    by_cases h : n = j
    · subst h
      by_cases hk : k = n
      · subst hk
        simpa [Cells.erase] using ih
      · simp [Cells.erase, Cells.read, ih, hk]
    · by_cases hj : k = j
      · subst hj
        simp [Cells.erase, Cells.read, h, Ne.symm h]
      · simp [Cells.erase, Cells.read, h, hj, ih]

theorem Cells.read_insert (m : Cells) (n k : Nat) (v : Word) :
    Cells.read (Cells.insert m n v) k = if k = n then v else Cells.read m k := by
  induction m with
  | nil => simp [Cells.insert, Cells.read]
  | cons c t ih =>
    obtain ⟨j, w⟩ := c
    unfold Cells.insert
    split
    · simp [Cells.read]
    · split
      · rename_i h
        subst h
        by_cases hk : k = n <;> simp [Cells.read, hk]
      · rename_i h1 h2
        by_cases hj : k = j
        · subst hj
          simp [Cells.read, Ne.symm h2]
        · simp [Cells.read, hj, ih]

/-- Read after write: the address written reads as the value, every other as before. -/
@[simp] theorem Cells.read_write (m : Cells) (n k : Nat) (v : Word) :
    Cells.read (Cells.write m n v) k = if k = n then v else Cells.read m k := by
  unfold Cells.write
  split
  · rename_i h
    rw [Cells.read_erase, h]
  · exact Cells.read_insert m n k v

@[simp] theorem Memory.read_write (m : Memory) (a b v : Word) :
    (m.write a v).read b = if b = a then v else m.read b := by
  simp only [Memory.read, Memory.write, Cells.read_write, BitVec.toNat_inj]

@[simp] theorem State.writeMem_readMem (s : State) (a b v : Word) :
    (s.writeMem a v).readMem b = if b = a then v else s.readMem b :=
  Memory.read_write s.mem a b v

@[simp] theorem State.push_readMem (s : State) (b v : Word) :
    (s.push v).readMem b = if b = s.sp - 1 then v else s.readMem b :=
  Memory.read_write s.mem (s.sp - 1) b v

theorem Cells.mem_erase {m : Cells} {n : Nat} {c : Nat × Word} (h : c ∈ Cells.erase m n) : c ∈ m := by
  induction m with
  | nil => simp [Cells.erase] at h
  | cons d t ih =>
    obtain ⟨j, w⟩ := d
    unfold Cells.erase at h
    split at h
    · exact List.mem_cons_of_mem _ (ih h)
    · rcases List.mem_cons.1 h with h | h
      · exact h ▸ List.mem_cons_self
      · exact List.mem_cons_of_mem _ (ih h)

theorem Cells.mem_insert {m : Cells} {n : Nat} {v : Word} {c : Nat × Word} (h : c ∈ Cells.insert m n v) :
    c = (n, v) ∨ c ∈ m := by
  induction m with
  | nil => simpa [Cells.insert] using h
  | cons d t ih =>
    obtain ⟨j, w⟩ := d
    unfold Cells.insert at h
    split at h
    · simpa using h
    · split at h
      · rcases List.mem_cons.1 h with h | h
        · exact .inl h
        · exact .inr (List.mem_cons_of_mem _ h)
      · rcases List.mem_cons.1 h with h | h
        · exact .inr (h ▸ List.mem_cons_self)
        · rcases ih h with h | h
          · exact .inl h
          · exact .inr (List.mem_cons_of_mem _ h)

theorem Cells.wf_erase {bound : Nat} {m : Cells} (h : Cells.wf bound m) (n : Nat) : Cells.wf bound (Cells.erase m n) := by
  refine ⟨?_, fun c hc => h.2 c (Cells.mem_erase hc)⟩
  obtain ⟨hp, -⟩ := h
  induction m with
  | nil => exact List.Pairwise.nil
  | cons d t ih =>
    obtain ⟨j, w⟩ := d
    obtain ⟨h1, h2⟩ := List.pairwise_cons.1 hp
    unfold Cells.erase
    split
    · exact ih h2
    · exact List.pairwise_cons.2 ⟨fun c hc => h1 c (Cells.mem_erase hc), ih h2⟩

theorem Cells.wf_insert {bound : Nat} {m : Cells} (h : Cells.wf bound m) {n : Nat} (hn : n < bound) {v : Word}
    (hv : v ≠ unlistedWord) : Cells.wf bound (Cells.insert m n v) := by
  constructor
  · obtain ⟨hp, -⟩ := h
    induction m with
    | nil => exact List.pairwise_singleton _ _
    | cons d t ih =>
      obtain ⟨j, w⟩ := d
      obtain ⟨h1, h2⟩ := List.pairwise_cons.1 hp
      unfold Cells.insert
      split
      · rename_i hlt
        refine List.pairwise_cons.2 ⟨fun c hc => ?_, hp⟩
        rcases List.mem_cons.1 hc with hc | hc
        · exact hc ▸ hlt
        · exact Nat.lt_trans hlt (h1 c hc)
      · split
        · rename_i heq
          exact List.pairwise_cons.2 ⟨fun c hc => heq ▸ h1 c hc, h2⟩
        · refine List.pairwise_cons.2 ⟨fun c hc => ?_, ih h2⟩
          rcases Cells.mem_insert hc with hc | hc
          · subst hc
            show j < n
            omega
          · exact h1 c hc
  · intro c hc
    rcases Cells.mem_insert hc with hc | hc
    · exact hc ▸ ⟨hn, hv⟩
    · exact h.2 c hc

/-- A write keeps the canonical form. -/
theorem Cells.wf_write {bound : Nat} {m : Cells} (h : Cells.wf bound m) {n : Nat} (hn : n < bound) (v : Word) :
    Cells.wf bound (Cells.write m n v) := by
  unfold Cells.write
  split
  · exact Cells.wf_erase h n
  · exact Cells.wf_insert h hn (by assumption)

/-- A block write within the bound keeps the canonical form. -/
theorem Cells.wf_writeBlock {bound : Nat} (ws : List Word) {m : Cells} (h : Cells.wf bound m) {n : Nat}
    (hn : n + ws.length ≤ bound) : Cells.wf bound (Cells.writeBlock m n ws) := by
  induction ws generalizing m n with
  | nil => exact h
  | cons w ws ih =>
    simp only [List.length_cons] at hn
    exact ih (Cells.wf_write h (by omega) w) (by omega)

/-- What a block write leaves at every address. -/
theorem Cells.read_writeBlock (ws : List Word) (m : Cells) (n k : Nat) :
    Cells.read (Cells.writeBlock m n ws) k =
      if n ≤ k ∧ k < n + ws.length then ws.getD (k - n) 0 else Cells.read m k := by
  induction ws generalizing m n with
  | nil =>
    have h : ¬(n ≤ k ∧ k < n + 0) := by omega
    rw [List.length_nil, if_neg h, Cells.writeBlock]
  | cons w ws ih =>
    rw [Cells.writeBlock, ih]
    simp only [List.length_cons, Cells.read_write]
    by_cases hk : k = n
    · subst hk
      simp
    · by_cases hin : n + 1 ≤ k ∧ k < n + 1 + ws.length
      · have h2 : n ≤ k ∧ k < n + (ws.length + 1) := by omega
        obtain ⟨d, hd⟩ : ∃ d, k - n = d + 1 := ⟨k - n - 1, by omega⟩
        have h3 : k - (n + 1) = d := by omega
        rw [if_pos hin, if_pos h2, hd, h3]
        rfl
      · have h2 : ¬(n ≤ k ∧ k < n + (ws.length + 1)) := by omega
        rw [if_neg hin, if_neg hk, if_neg h2]

@[simp] theorem Cells.length_readBlock (m : Cells) (n len : Nat) : (Cells.readBlock m n len).length = len := by
  simp [Cells.readBlock]

theorem Cells.getD_readBlock (m : Cells) (n len i : Nat) (h : i < len) :
    (Cells.readBlock m n len).getD i 0 = Cells.read m (n + i) := by
  simp [Cells.readBlock, h]

theorem Memory.wf_write {m : Memory} (h : Memory.wf m) (a v : Word) : Memory.wf (m.write a v) :=
  Cells.wf_write h a.isLt v

theorem Cells.wf_nil (bound : Nat) : Cells.wf bound [] := ⟨List.Pairwise.nil, by simp⟩

/-- Reset memory is in canonical form. -/
theorem State.reset_mem_wf : Memory.wf State.reset.mem := Cells.wf_nil _

theorem State.writeMem_mem_wf {s : State} (h : Memory.wf s.mem) (a v : Word) : Memory.wf (s.writeMem a v).mem :=
  Memory.wf_write h a v

theorem State.storeWords_mem_wf (ws : List Word) {s : State} (h : Memory.wf s.mem) (a : Word) :
    Memory.wf (s.storeWords a ws).mem := by
  induction ws generalizing s a with
  | nil => exact h
  | cons w ws ih => exact ih (State.writeMem_mem_wf h a w) (a + 1)

end Sys2Proof.Machine
end

