-- ==== Sys2Proof/Laws/Operands.lean ====
section
/-! SUPPORT. What resolving operands and writing through a location can do (spec `41_operands.md`): each function's effect on every
field, once. -/

namespace Sys2Proof.Machine

/-- By how much operand a moves SP (R158). -/
def popBy : SrcOperand → Word
  | .pop => 1
  | .com _ => 0
  | .short _ => 0

/-- By how much operand b moves SP down (R157). -/
def pushBy : DstOperand → Word
  | .push => 1
  | .com _ => 0

theorem operandCost_le (o : Operand) : operandCost o ≤ 1 := by cases o <;> simp [operandCost]

theorem costA_le (a : SrcOperand) : costA a ≤ 1 := by
  cases a with
  | com o => exact operandCost_le o
  | pop => decide
  | short v => exact Nat.zero_le 1

theorem costB_le (b : DstOperand) : costB b ≤ 1 := by
  cases b with
  | com o => exact operandCost_le o
  | push => decide

section
variable (a : SrcOperand) (b : DstOperand) (s : State)

/-! fetched, afterA, afterB -/

@[simp] theorem fetched_regs : (fetched s).regs = s.regs := rfl
@[simp] theorem fetched_sp : (fetched s).sp = s.sp := rfl
@[simp] theorem fetched_ex : (fetched s).ex = s.ex := rfl
@[simp] theorem fetched_mem : (fetched s).mem = s.mem := rfl
@[simp] theorem fetched_ia : (fetched s).ia = s.ia := rfl
@[simp] theorem fetched_ien : (fetched s).ien = s.ien := rfl
@[simp] theorem fetched_iaq : (fetched s).iaq = s.iaq := rfl
@[simp] theorem fetched_queue : (fetched s).queue = s.queue := rfl
@[simp] theorem fetched_onFire : (fetched s).onFire = s.onFire := rfl
@[simp] theorem fetched_sleepCycles : (fetched s).sleepCycles = s.sleepCycles := rfl
@[simp] theorem fetched_devices : (fetched s).devices = s.devices := rfl
@[simp] theorem fetched_status : (fetched s).status = s.status := rfl
@[simp] theorem fetched_pc : (fetched s).pc = s.pc + 1 := rfl

@[simp] theorem afterA_regs : (afterA a s).regs = s.regs := by cases a <;> rfl
@[simp] theorem afterB_regs : (afterB b s).regs = s.regs := by cases b <;> rfl
@[simp] theorem afterA_ex : (afterA a s).ex = s.ex := by cases a <;> rfl
@[simp] theorem afterB_ex : (afterB b s).ex = s.ex := by cases b <;> rfl
@[simp] theorem afterA_mem : (afterA a s).mem = s.mem := by cases a <;> rfl
@[simp] theorem afterB_mem : (afterB b s).mem = s.mem := by cases b <;> rfl
@[simp] theorem afterA_ia : (afterA a s).ia = s.ia := by cases a <;> rfl
@[simp] theorem afterB_ia : (afterB b s).ia = s.ia := by cases b <;> rfl
@[simp] theorem afterA_ien : (afterA a s).ien = s.ien := by cases a <;> rfl
@[simp] theorem afterB_ien : (afterB b s).ien = s.ien := by cases b <;> rfl
@[simp] theorem afterA_iaq : (afterA a s).iaq = s.iaq := by cases a <;> rfl
@[simp] theorem afterB_iaq : (afterB b s).iaq = s.iaq := by cases b <;> rfl
@[simp] theorem afterA_queue : (afterA a s).queue = s.queue := by cases a <;> rfl
@[simp] theorem afterB_queue : (afterB b s).queue = s.queue := by cases b <;> rfl
@[simp] theorem afterA_onFire : (afterA a s).onFire = s.onFire := by cases a <;> rfl
@[simp] theorem afterB_onFire : (afterB b s).onFire = s.onFire := by cases b <;> rfl
@[simp] theorem afterA_sleepCycles : (afterA a s).sleepCycles = s.sleepCycles := by cases a <;> rfl
@[simp] theorem afterB_sleepCycles : (afterB b s).sleepCycles = s.sleepCycles := by cases b <;> rfl
@[simp] theorem afterA_devices : (afterA a s).devices = s.devices := by cases a <;> rfl
@[simp] theorem afterB_devices : (afterB b s).devices = s.devices := by cases b <;> rfl
@[simp] theorem afterA_status : (afterA a s).status = s.status := by cases a <;> rfl
@[simp] theorem afterB_status : (afterB b s).status = s.status := by cases b <;> rfl

@[simp] theorem afterA_pc : (afterA a s).pc = s.pc + BitVec.ofNat 16 (costA a) := by
  cases a <;> simp [afterA, afterOperand, costA]

@[simp] theorem afterB_pc : (afterB b s).pc = s.pc + BitVec.ofNat 16 (costB b) := by
  cases b <;> simp [afterB, afterOperand, costB]

@[simp] theorem afterA_sp : (afterA a s).sp = s.sp + popBy a := by
  cases a <;> simp [afterA, afterOperand, popBy]

@[simp] theorem afterB_sp : (afterB b s).sp = s.sp - pushBy b := by
  cases b <;> simp [afterB, afterOperand, pushBy]

/-! afterSrc: the state a special instruction acts on -/

@[simp] theorem afterSrc_regs : (afterSrc a s).regs = s.regs := by simp [afterSrc]
@[simp] theorem afterSrc_ex : (afterSrc a s).ex = s.ex := by simp [afterSrc]
@[simp] theorem afterSrc_mem : (afterSrc a s).mem = s.mem := by simp [afterSrc]
@[simp] theorem afterSrc_ia : (afterSrc a s).ia = s.ia := by simp [afterSrc]
@[simp] theorem afterSrc_ien : (afterSrc a s).ien = s.ien := by simp [afterSrc]
@[simp] theorem afterSrc_iaq : (afterSrc a s).iaq = s.iaq := by simp [afterSrc]
@[simp] theorem afterSrc_queue : (afterSrc a s).queue = s.queue := by simp [afterSrc]
@[simp] theorem afterSrc_onFire : (afterSrc a s).onFire = s.onFire := by simp [afterSrc]
@[simp] theorem afterSrc_sleepCycles : (afterSrc a s).sleepCycles = s.sleepCycles := by simp [afterSrc]
@[simp] theorem afterSrc_devices : (afterSrc a s).devices = s.devices := by simp [afterSrc]
@[simp] theorem afterSrc_status : (afterSrc a s).status = s.status := by simp [afterSrc]
@[simp] theorem afterSrc_reg (r : Reg) : (afterSrc a s).reg r = s.reg r := State.reg_eq_of_regs_eq (afterSrc_regs a s) r
@[simp] theorem afterSrc_readMem (n : Word) : (afterSrc a s).readMem n = s.readMem n :=
  State.readMem_eq_of_mem_eq (afterSrc_mem a s) n

@[simp] theorem afterSrc_pc : (afterSrc a s).pc = s.pc + 1 + BitVec.ofNat 16 (costA a) := by simp [afterSrc]

@[simp] theorem afterSrc_sp : (afterSrc a s).sp = s.sp + popBy a := by simp [afterSrc]

/-! resolved: the state a basic instruction acts on -/

@[simp] theorem resolved_regs : (resolved b a s).regs = s.regs := by simp [resolved]
@[simp] theorem resolved_ex : (resolved b a s).ex = s.ex := by simp [resolved]
@[simp] theorem resolved_mem : (resolved b a s).mem = s.mem := by simp [resolved]
@[simp] theorem resolved_ia : (resolved b a s).ia = s.ia := by simp [resolved]
@[simp] theorem resolved_ien : (resolved b a s).ien = s.ien := by simp [resolved]
@[simp] theorem resolved_iaq : (resolved b a s).iaq = s.iaq := by simp [resolved]
@[simp] theorem resolved_queue : (resolved b a s).queue = s.queue := by simp [resolved]
@[simp] theorem resolved_onFire : (resolved b a s).onFire = s.onFire := by simp [resolved]
@[simp] theorem resolved_sleepCycles : (resolved b a s).sleepCycles = s.sleepCycles := by simp [resolved]
@[simp] theorem resolved_devices : (resolved b a s).devices = s.devices := by simp [resolved]
@[simp] theorem resolved_status : (resolved b a s).status = s.status := by simp [resolved]
@[simp] theorem resolved_reg (r : Reg) : (resolved b a s).reg r = s.reg r := State.reg_eq_of_regs_eq (resolved_regs a b s) r
@[simp] theorem resolved_readMem (n : Word) : (resolved b a s).readMem n = s.readMem n :=
  State.readMem_eq_of_mem_eq (resolved_mem a b s) n

@[simp] theorem resolved_pc :
    (resolved b a s).pc = s.pc + 1 + BitVec.ofNat 16 (costA a) + BitVec.ofNat 16 (costB b) := by simp [resolved]

@[simp] theorem resolved_sp : (resolved b a s).sp = s.sp + popBy a - pushBy b := by simp [resolved]

end

section
variable (s : State) (l : Loc) (v : Word)

/-! writeLoc -/

@[simp] theorem State.writeLoc_ia : (s.writeLoc l v).ia = s.ia := by cases l <;> rfl
@[simp] theorem State.writeLoc_ien : (s.writeLoc l v).ien = s.ien := by cases l <;> rfl
@[simp] theorem State.writeLoc_iaq : (s.writeLoc l v).iaq = s.iaq := by cases l <;> rfl
@[simp] theorem State.writeLoc_queue : (s.writeLoc l v).queue = s.queue := by cases l <;> rfl
@[simp] theorem State.writeLoc_onFire : (s.writeLoc l v).onFire = s.onFire := by cases l <;> rfl
@[simp] theorem State.writeLoc_sleepCycles : (s.writeLoc l v).sleepCycles = s.sleepCycles := by cases l <;> rfl
@[simp] theorem State.writeLoc_devices : (s.writeLoc l v).devices = s.devices := by cases l <;> rfl
@[simp] theorem State.writeLoc_status : (s.writeLoc l v).status = s.status := by cases l <;> rfl

@[simp] theorem State.writeLoc_reg (r : Reg) : (s.writeLoc l v).reg r = if l = .reg r then v else s.reg r := by
  cases l with
  | reg q =>
    by_cases h : r = q
    · simp [State.writeLoc, h]
    · simp [State.writeLoc, h, Ne.symm h]
  | mem n => simp [State.writeLoc]
  | sp => simp [State.writeLoc]
  | pc => simp [State.writeLoc]
  | ex => simp [State.writeLoc]
  | lit w => simp [State.writeLoc]

@[simp] theorem State.writeLoc_pc : (s.writeLoc l v).pc = if l = .pc then v else s.pc := by
  cases l <;> simp [State.writeLoc]

@[simp] theorem State.writeLoc_sp : (s.writeLoc l v).sp = if l = .sp then v else s.sp := by
  cases l <;> simp [State.writeLoc]

@[simp] theorem State.writeLoc_ex : (s.writeLoc l v).ex = if l = .ex then v else s.ex := by
  cases l <;> simp [State.writeLoc]

@[simp] theorem State.writeLoc_readMem (n : Word) :
    (s.writeLoc l v).readMem n = if l = .mem n then v else s.readMem n := by
  cases l with
  | mem q =>
    by_cases h : n = q
    · simp [State.writeLoc, h]
    · simp [State.writeLoc, h, Ne.symm h]
  | reg q => simp [State.writeLoc]
  | sp => simp [State.writeLoc]
  | pc => simp [State.writeLoc]
  | ex => simp [State.writeLoc]
  | lit w => simp [State.writeLoc]

theorem State.writeLoc_mem_wf {s : State} (h : Memory.wf s.mem) (l : Loc) (v : Word) : Memory.wf (s.writeLoc l v).mem := by
  cases l with
  | mem n => exact State.writeMem_mem_wf h n v
  | reg q => exact h
  | sp => exact h
  | pc => exact h
  | ex => exact h
  | lit w => exact h

end

end Sys2Proof.Machine
end

