-- ==== Sys2Proof/Laws/Exec.lean ====
section
/-! SUPPORT. What each shared operation of the instruction meanings can do: `writeResult` (SET, arithmetic, logic, shifts),
`conditional` and the skip, and the interrupt queue. Provers cite these instead of unfolding. -/

namespace Sys2Proof.Machine

section
variable (base : Nat) (b : DstOperand) (a : SrcOperand) (s : State) (res : Word) (e : Option Word)

/-! writeResult -/

@[simp] theorem writeResult_ia : (writeResult base b a s res e).ia = s.ia := by simp [writeResult]
@[simp] theorem writeResult_ien : (writeResult base b a s res e).ien = s.ien := by simp [writeResult]
@[simp] theorem writeResult_iaq : (writeResult base b a s res e).iaq = s.iaq := by simp [writeResult]
@[simp] theorem writeResult_queue : (writeResult base b a s res e).queue = s.queue := by simp [writeResult]
@[simp] theorem writeResult_onFire : (writeResult base b a s res e).onFire = s.onFire := by simp [writeResult]
@[simp] theorem writeResult_devices : (writeResult base b a s res e).devices = s.devices := by simp [writeResult]
@[simp] theorem writeResult_status : (writeResult base b a s res e).status = s.status := by simp [writeResult]

@[simp] theorem writeResult_reg (r : Reg) :
    (writeResult base b a s res e).reg r = if dstLoc b a s = .reg r then res else s.reg r := by simp [writeResult]

@[simp] theorem writeResult_pc :
    (writeResult base b a s res e).pc = if dstLoc b a s = .pc then res else (resolved b a s).pc := by simp [writeResult]

@[simp] theorem writeResult_sp :
    (writeResult base b a s res e).sp = if dstLoc b a s = .sp then res else (resolved b a s).sp := by simp [writeResult]

@[simp] theorem writeResult_ex :
    (writeResult base b a s res e).ex = e.getD (if dstLoc b a s = .ex then res else s.ex) := by simp [writeResult]

@[simp] theorem writeResult_readMem (n : Word) :
    (writeResult base b a s res e).readMem n = if dstLoc b a s = .mem n then res else s.readMem n := by simp [writeResult]

@[simp] theorem writeResult_sleepCycles : (writeResult base b a s res e).sleepCycles = base + costA a + costB b - 1 := rfl

theorem writeResult_mem_wf (h : Memory.wf s.mem) : Memory.wf (writeResult base b a s res e).mem :=
  State.writeLoc_mem_wf (s := resolved b a s) (by simpa using h) (dstLoc b a s) res

end

/-! The queue -/

/-- Everything `Enqueue` can do (R363, R368). -/
theorem State.enqueue_cases (s : State) (m : Word) :
    (s.onFire = true ∧ s.enqueue m = s) ∨
    (s.onFire = false ∧ params.queueCap ≤ s.queue.length ∧ s.enqueue m = s.setOnFire true) ∨
    (s.onFire = false ∧ s.queue.length < params.queueCap ∧ s.enqueue m = s.setQueue (s.queue ++ [m])) := by
  unfold State.enqueue
  split
  · rename_i h
    exact .inl ⟨h, rfl⟩
  · rename_i h
    have hf : s.onFire = false := by simpa using h
    split
    · exact .inr (.inl ⟨hf, by assumption, rfl⟩)
    · exact .inr (.inr ⟨hf, by omega, rfl⟩)

/-- What holds of a state and is kept by one enqueue is kept by a list of them. -/
theorem State.enqueueAll_induct {P : State → Prop} (hstep : ∀ s m, P s → P (s.enqueue m)) (ms : List Word) (s : State)
    (h : P s) : P (s.enqueueAll ms) := by
  induction ms generalizing s with
  | nil => exact h
  | cons m ms ih => exact ih (s.enqueue m) (hstep s m h)

section
variable (s : State) (m : Word) (ms : List Word)

@[simp] theorem State.enqueue_regs : (s.enqueue m).regs = s.regs := by
  rcases s.enqueue_cases m with ⟨-, h⟩ | ⟨-, -, h⟩ | ⟨-, -, h⟩ <;> simp [h]

@[simp] theorem State.enqueueAll_regs : (s.enqueueAll ms).regs = s.regs :=
  State.enqueueAll_induct (P := fun t => t.regs = s.regs) (fun t m h => by simpa using h) ms s rfl

@[simp] theorem State.enqueue_pc : (s.enqueue m).pc = s.pc := by
  rcases s.enqueue_cases m with ⟨-, h⟩ | ⟨-, -, h⟩ | ⟨-, -, h⟩ <;> simp [h]

@[simp] theorem State.enqueueAll_pc : (s.enqueueAll ms).pc = s.pc :=
  State.enqueueAll_induct (P := fun t => t.pc = s.pc) (fun t m h => by simpa using h) ms s rfl

@[simp] theorem State.enqueue_sp : (s.enqueue m).sp = s.sp := by
  rcases s.enqueue_cases m with ⟨-, h⟩ | ⟨-, -, h⟩ | ⟨-, -, h⟩ <;> simp [h]

@[simp] theorem State.enqueueAll_sp : (s.enqueueAll ms).sp = s.sp :=
  State.enqueueAll_induct (P := fun t => t.sp = s.sp) (fun t m h => by simpa using h) ms s rfl

@[simp] theorem State.enqueue_ex : (s.enqueue m).ex = s.ex := by
  rcases s.enqueue_cases m with ⟨-, h⟩ | ⟨-, -, h⟩ | ⟨-, -, h⟩ <;> simp [h]

@[simp] theorem State.enqueueAll_ex : (s.enqueueAll ms).ex = s.ex :=
  State.enqueueAll_induct (P := fun t => t.ex = s.ex) (fun t m h => by simpa using h) ms s rfl

@[simp] theorem State.enqueue_ia : (s.enqueue m).ia = s.ia := by
  rcases s.enqueue_cases m with ⟨-, h⟩ | ⟨-, -, h⟩ | ⟨-, -, h⟩ <;> simp [h]

@[simp] theorem State.enqueueAll_ia : (s.enqueueAll ms).ia = s.ia :=
  State.enqueueAll_induct (P := fun t => t.ia = s.ia) (fun t m h => by simpa using h) ms s rfl

@[simp] theorem State.enqueue_mem : (s.enqueue m).mem = s.mem := by
  rcases s.enqueue_cases m with ⟨-, h⟩ | ⟨-, -, h⟩ | ⟨-, -, h⟩ <;> simp [h]

@[simp] theorem State.enqueueAll_mem : (s.enqueueAll ms).mem = s.mem :=
  State.enqueueAll_induct (P := fun t => t.mem = s.mem) (fun t m h => by simpa using h) ms s rfl

@[simp] theorem State.enqueue_ien : (s.enqueue m).ien = s.ien := by
  rcases s.enqueue_cases m with ⟨-, h⟩ | ⟨-, -, h⟩ | ⟨-, -, h⟩ <;> simp [h]

@[simp] theorem State.enqueueAll_ien : (s.enqueueAll ms).ien = s.ien :=
  State.enqueueAll_induct (P := fun t => t.ien = s.ien) (fun t m h => by simpa using h) ms s rfl

@[simp] theorem State.enqueue_iaq : (s.enqueue m).iaq = s.iaq := by
  rcases s.enqueue_cases m with ⟨-, h⟩ | ⟨-, -, h⟩ | ⟨-, -, h⟩ <;> simp [h]

@[simp] theorem State.enqueueAll_iaq : (s.enqueueAll ms).iaq = s.iaq :=
  State.enqueueAll_induct (P := fun t => t.iaq = s.iaq) (fun t m h => by simpa using h) ms s rfl

@[simp] theorem State.enqueue_sleepCycles : (s.enqueue m).sleepCycles = s.sleepCycles := by
  rcases s.enqueue_cases m with ⟨-, h⟩ | ⟨-, -, h⟩ | ⟨-, -, h⟩ <;> simp [h]

@[simp] theorem State.enqueueAll_sleepCycles : (s.enqueueAll ms).sleepCycles = s.sleepCycles :=
  State.enqueueAll_induct (P := fun t => t.sleepCycles = s.sleepCycles) (fun t m h => by simpa using h) ms s rfl

@[simp] theorem State.enqueue_devices : (s.enqueue m).devices = s.devices := by
  rcases s.enqueue_cases m with ⟨-, h⟩ | ⟨-, -, h⟩ | ⟨-, -, h⟩ <;> simp [h]

@[simp] theorem State.enqueueAll_devices : (s.enqueueAll ms).devices = s.devices :=
  State.enqueueAll_induct (P := fun t => t.devices = s.devices) (fun t m h => by simpa using h) ms s rfl

@[simp] theorem State.enqueue_status : (s.enqueue m).status = s.status := by
  rcases s.enqueue_cases m with ⟨-, h⟩ | ⟨-, -, h⟩ | ⟨-, -, h⟩ <;> simp [h]

@[simp] theorem State.enqueueAll_status : (s.enqueueAll ms).status = s.status :=
  State.enqueueAll_induct (P := fun t => t.status = s.status) (fun t m h => by simpa using h) ms s rfl

@[simp] theorem State.enqueue_reg (r : Reg) : (s.enqueue m).reg r = s.reg r := State.reg_eq_of_regs_eq (s.enqueue_regs m) r
@[simp] theorem State.enqueueAll_reg (r : Reg) : (s.enqueueAll ms).reg r = s.reg r :=
  State.reg_eq_of_regs_eq (s.enqueueAll_regs ms) r
@[simp] theorem State.enqueue_readMem (n : Word) : (s.enqueue m).readMem n = s.readMem n :=
  State.readMem_eq_of_mem_eq (s.enqueue_mem m) n
@[simp] theorem State.enqueueAll_readMem (n : Word) : (s.enqueueAll ms).readMem n = s.readMem n :=
  State.readMem_eq_of_mem_eq (s.enqueueAll_mem ms) n

end

/-- What enqueueing does to the queue and the fatal bit depends on nothing else of the state. -/
theorem State.enqueueAll_congr {s t : State} (hq : t.queue = s.queue) (hf : t.onFire = s.onFire) (ms : List Word) :
    (t.enqueueAll ms).queue = (s.enqueueAll ms).queue ∧ (t.enqueueAll ms).onFire = (s.enqueueAll ms).onFire := by
  induction ms generalizing s t with
  | nil => exact ⟨hq, hf⟩
  | cons m ms ih =>
    refine ih ?_ ?_ <;> unfold State.enqueue <;> rw [hq, hf] <;> split <;> first | assumption | (split <;> simp [hq, hf])

/-- Messages enter the queue at its tail (R32, R363). -/
theorem State.enqueueAll_queue (s : State) (ms : List Word) : ∃ new, (s.enqueueAll ms).queue = s.queue ++ new := by
  induction ms generalizing s with
  | nil => exact ⟨[], (List.append_nil _).symm⟩
  | cons m ms ih =>
    obtain ⟨new, h⟩ := ih (s.enqueue m)
    rcases s.enqueue_cases m with ⟨-, e⟩ | ⟨-, -, e⟩ | ⟨-, -, e⟩
    · exact ⟨new, by simpa [State.enqueueAll, e] using h⟩
    · exact ⟨new, by simpa [State.enqueueAll, e] using h⟩
    · exact ⟨m :: new, by simpa [State.enqueueAll, e] using h⟩

/-! Return from interrupt -/

section
variable (s : State)

@[simp] theorem State.returnFromInterrupt_iaq : s.returnFromInterrupt.iaq = false := rfl
@[simp] theorem State.returnFromInterrupt_sp : s.returnFromInterrupt.sp = s.sp + 1 + 1 := rfl
@[simp] theorem State.returnFromInterrupt_pc : s.returnFromInterrupt.pc = s.readMem (s.sp + 1) := rfl
@[simp] theorem State.returnFromInterrupt_ex : s.returnFromInterrupt.ex = s.ex := rfl
@[simp] theorem State.returnFromInterrupt_ia : s.returnFromInterrupt.ia = s.ia := rfl
@[simp] theorem State.returnFromInterrupt_mem : s.returnFromInterrupt.mem = s.mem := rfl
@[simp] theorem State.returnFromInterrupt_ien : s.returnFromInterrupt.ien = s.ien := rfl
@[simp] theorem State.returnFromInterrupt_queue : s.returnFromInterrupt.queue = s.queue := rfl
@[simp] theorem State.returnFromInterrupt_onFire : s.returnFromInterrupt.onFire = s.onFire := rfl
@[simp] theorem State.returnFromInterrupt_sleepCycles : s.returnFromInterrupt.sleepCycles = s.sleepCycles := rfl
@[simp] theorem State.returnFromInterrupt_devices : s.returnFromInterrupt.devices = s.devices := rfl
@[simp] theorem State.returnFromInterrupt_status : s.returnFromInterrupt.status = s.status := rfl
@[simp] theorem State.returnFromInterrupt_readMem (n : Word) : s.returnFromInterrupt.readMem n = s.readMem n := rfl
@[simp] theorem State.returnFromInterrupt_reg (r : Reg) :
    s.returnFromInterrupt.reg r = if r = .a then s.readMem s.sp else s.reg r := by
  simp [State.returnFromInterrupt, State.top]

end

/-! Delivery -/

section
variable (s : State) (m : Word) (rest : List Word)

@[simp] theorem State.takeInterrupt_queue : (s.takeInterrupt m rest).queue = rest := rfl
@[simp] theorem State.takeInterrupt_iaq : (s.takeInterrupt m rest).iaq = true := rfl
@[simp] theorem State.takeInterrupt_pc : (s.takeInterrupt m rest).pc = s.ia := rfl
@[simp] theorem State.takeInterrupt_sp : (s.takeInterrupt m rest).sp = s.sp - 2 := by
  show s.sp - 1 - 1 = s.sp - 2
  bv_omega
@[simp] theorem State.takeInterrupt_ex : (s.takeInterrupt m rest).ex = s.ex := rfl
@[simp] theorem State.takeInterrupt_ia : (s.takeInterrupt m rest).ia = s.ia := rfl
@[simp] theorem State.takeInterrupt_ien : (s.takeInterrupt m rest).ien = s.ien := rfl
@[simp] theorem State.takeInterrupt_onFire : (s.takeInterrupt m rest).onFire = s.onFire := rfl
@[simp] theorem State.takeInterrupt_sleepCycles : (s.takeInterrupt m rest).sleepCycles = s.sleepCycles := rfl
@[simp] theorem State.takeInterrupt_devices : (s.takeInterrupt m rest).devices = s.devices := rfl
@[simp] theorem State.takeInterrupt_status : (s.takeInterrupt m rest).status = s.status := rfl

@[simp] theorem State.takeInterrupt_reg (r : Reg) : (s.takeInterrupt m rest).reg r = if r = .a then m else s.reg r := by
  simp [State.takeInterrupt]

@[simp] theorem State.takeInterrupt_readMem (n : Word) :
    (s.takeInterrupt m rest).readMem n =
      if n = s.sp - 2 then s.reg .a else if n = s.sp - 1 then s.pc else s.readMem n := by
  have h : s.sp - 2 = s.sp - 1 - 1 := by bv_omega
  rw [h]
  simp only [State.takeInterrupt, State.setReg_readMem, State.setPc_readMem, State.push_readMem, State.push_sp,
    State.setIaq_sp, State.setQueue_sp, State.setIaq_readMem, State.setQueue_readMem]
  rfl

theorem State.takeInterrupt_mem_wf (h : Memory.wf s.mem) : Memory.wf (s.takeInterrupt m rest).mem :=
  Memory.wf_write (Memory.wf_write h _ _) _ _

end

/-- Everything sub-step 4 can do (R364). -/
theorem State.deliver_cases (s : State) :
    s.deliver = s ∨
    ∃ m rest, s.queue = m :: rest ∧ s.onFire = false ∧ s.ien = true ∧ s.ia ≠ 0 ∧ s.iaq = false ∧
      s.deliver = s.takeInterrupt m rest := by
  unfold State.deliver
  cases hq : s.queue with
  | nil => exact .inl rfl
  | cons m rest =>
    by_cases hc : s.canDeliver = true
    · refine .inr ⟨m, rest, rfl, ?_⟩
      simp only [hc, if_true, and_true]
      simpa [State.canDeliver, and_assoc] using hc
    · exact .inl (by simp [hc])

/-! The skip and the conditionals -/

/-- One turn of the skip (R239). -/
theorem skipFrom_succ (mem : Memory) (fuel : Nat) (pc : Word) :
    skipFrom mem (fuel + 1) pc =
      if isConditional (mem.read pc) then
        (skipFrom mem fuel (pc + BitVec.ofNat 16 (wordLength (mem.read pc)))).map fun r => (r.1, r.2 + 1)
      else some (pc + BitVec.ofNat 16 (wordLength (mem.read pc)), 1) := by
  simp only [skipFrom, params, Bool.true_and]
  split
  · cases skipFrom mem fuel (pc + BitVec.ofNat 16 (wordLength (mem.read pc))) <;> rfl
  · rfl

/-- Everything a conditional can do (R230, R239, R240). -/
theorem conditional_cases (test : Word → Word → Bool) (b : DstOperand) (a : SrcOperand) (s : State) :
    (test (dstVal b a s) (srcVal b a s) = true ∧
      conditional test b a s = .next ((resolved b a s).setSleep (2 + costA a + costB b - 1))) ∨
    (test (dstVal b a s) (srcVal b a s) = false ∧ ∃ pc n, skip (resolved b a s) = some (pc, n) ∧
      conditional test b a s = .next (((resolved b a s).setPc pc).setSleep (2 + costA a + costB b + n - 1))) ∨
    (test (dstVal b a s) (srcVal b a s) = false ∧ skip (resolved b a s) = none ∧
      conditional test b a s = .fault .skipNeverEnds) := by
  unfold conditional
  by_cases ht : test (dstVal b a s) (srcVal b a s) = true
  · exact .inl ⟨ht, by simp [ht]⟩
  · have hf : test (dstVal b a s) (srcVal b a s) = false := by simpa using ht
    cases hs : skip (resolved b a s) with
    | none => exact .inr (.inr ⟨hf, rfl, by simp [hf, hs]⟩)
    | some p => exact .inr (.inl ⟨hf, p.1, p.2, rfl, by simp [hf, hs]⟩)

end Sys2Proof.Machine
end

