-- ==== Sys2Proof/Laws/Bus.lean ====
section
/-! SUPPORT. What a device call, the stepping of all devices and attaching one can do (spec `46_device_bus.md`). -/

namespace Sys2Proof.Machine

@[simp] theorem raised_zero (msgs : List Word) : raised 0 msgs = [] := rfl

@[simp] theorem raised_of_ne_zero {m : Word} (h : m ≠ 0) (msgs : List Word) : raised m msgs = msgs := if_neg h

/-- Everything `attach_device` can do (R129, R289). -/
theorem hostAttach_cases (d : NewDevice) (s : State) :
    (params.maxDevices ≤ s.devices.length ∧ hostAttach d s = (s, .refused)) ∨
    (s.devices.length < params.maxDevices ∧
      hostAttach d s = (s.setDevices (s.devices ++ [d.create]), .attached s.devices.length)) := by
  unfold hostAttach
  split
  · exact .inl ⟨‹_›, rfl⟩
  · exact .inr ⟨Nat.lt_of_not_le ‹_›, rfl⟩

/-- Everything one device's turn in sub-step 5 can do (R126, R128). -/
theorem cycleDevice_cases (s : State) (n : Nat) :
    (cycleDevice s n = s) ∨
    ∃ d, s.onFire = false ∧ s.devices[n]? = some d ∧
      cycleDevice s n = (s.setDevices (s.devices.set n (deviceCycle d).1)).enqueueAll (deviceCycle d).2 := by
  unfold cycleDevice
  split
  · exact .inl rfl
  · rename_i h
    cases hd : s.devices[n]? with
    | none => exact .inl rfl
    | some d => exact .inr ⟨d, by simpa using h, rfl, rfl⟩

/-- What one device's turn keeps, sub-step 5 keeps. -/
theorem cycleDevices_induct {P : State → Prop} (hstep : ∀ s n, P s → P (cycleDevice s n)) {s : State} (h : P s) :
    P (cycleDevices s) := by
  unfold cycleDevices
  generalize List.range s.devices.length = l
  induction l generalizing s with
  | nil => exact h
  | cons n l ih => exact ih (hstep s n h)

/-- Everything a device call through HWI can do (R260). -/
theorem callDevice_cases (n : Nat) (s : State) :
    (s.devices[n]? = none ∧ callDevice n s = s) ∨
    ∃ d, s.devices[n]? = some d ∧
      callDevice n s = ((s.withView (deviceInterrupt d s.view).2.1).setDevices
        (s.devices.set n (deviceInterrupt d s.view).1)).enqueueAll (deviceInterrupt d s.view).2.2 := by
  unfold callDevice
  cases hd : s.devices[n]? with
  | none => exact .inl ⟨rfl, rfl⟩
  | some d => exact .inr ⟨d, rfl, rfl⟩

section
variable (s : State) (n : Nat)

@[simp] theorem cycleDevice_regs : (cycleDevice s n).regs = s.regs := by
  rcases cycleDevice_cases s n with h | ⟨d, -, -, h⟩ <;> simp [h]

@[simp] theorem cycleDevices_regs : (cycleDevices s).regs = s.regs :=
  cycleDevices_induct (P := fun t => t.regs = s.regs) (fun t n h => by simpa using h) rfl

@[simp] theorem cycleDevice_pc : (cycleDevice s n).pc = s.pc := by
  rcases cycleDevice_cases s n with h | ⟨d, -, -, h⟩ <;> simp [h]

@[simp] theorem cycleDevices_pc : (cycleDevices s).pc = s.pc :=
  cycleDevices_induct (P := fun t => t.pc = s.pc) (fun t n h => by simpa using h) rfl

@[simp] theorem cycleDevice_sp : (cycleDevice s n).sp = s.sp := by
  rcases cycleDevice_cases s n with h | ⟨d, -, -, h⟩ <;> simp [h]

@[simp] theorem cycleDevices_sp : (cycleDevices s).sp = s.sp :=
  cycleDevices_induct (P := fun t => t.sp = s.sp) (fun t n h => by simpa using h) rfl

@[simp] theorem cycleDevice_ex : (cycleDevice s n).ex = s.ex := by
  rcases cycleDevice_cases s n with h | ⟨d, -, -, h⟩ <;> simp [h]

@[simp] theorem cycleDevices_ex : (cycleDevices s).ex = s.ex :=
  cycleDevices_induct (P := fun t => t.ex = s.ex) (fun t n h => by simpa using h) rfl

@[simp] theorem cycleDevice_ia : (cycleDevice s n).ia = s.ia := by
  rcases cycleDevice_cases s n with h | ⟨d, -, -, h⟩ <;> simp [h]

@[simp] theorem cycleDevices_ia : (cycleDevices s).ia = s.ia :=
  cycleDevices_induct (P := fun t => t.ia = s.ia) (fun t n h => by simpa using h) rfl

@[simp] theorem cycleDevice_mem : (cycleDevice s n).mem = s.mem := by
  rcases cycleDevice_cases s n with h | ⟨d, -, -, h⟩ <;> simp [h]

@[simp] theorem cycleDevices_mem : (cycleDevices s).mem = s.mem :=
  cycleDevices_induct (P := fun t => t.mem = s.mem) (fun t n h => by simpa using h) rfl

@[simp] theorem cycleDevice_ien : (cycleDevice s n).ien = s.ien := by
  rcases cycleDevice_cases s n with h | ⟨d, -, -, h⟩ <;> simp [h]

@[simp] theorem cycleDevices_ien : (cycleDevices s).ien = s.ien :=
  cycleDevices_induct (P := fun t => t.ien = s.ien) (fun t n h => by simpa using h) rfl

@[simp] theorem cycleDevice_iaq : (cycleDevice s n).iaq = s.iaq := by
  rcases cycleDevice_cases s n with h | ⟨d, -, -, h⟩ <;> simp [h]

@[simp] theorem cycleDevices_iaq : (cycleDevices s).iaq = s.iaq :=
  cycleDevices_induct (P := fun t => t.iaq = s.iaq) (fun t n h => by simpa using h) rfl

@[simp] theorem cycleDevice_sleepCycles : (cycleDevice s n).sleepCycles = s.sleepCycles := by
  rcases cycleDevice_cases s n with h | ⟨d, -, -, h⟩ <;> simp [h]

@[simp] theorem cycleDevices_sleepCycles : (cycleDevices s).sleepCycles = s.sleepCycles :=
  cycleDevices_induct (P := fun t => t.sleepCycles = s.sleepCycles) (fun t n h => by simpa using h) rfl

@[simp] theorem cycleDevice_status : (cycleDevice s n).status = s.status := by
  rcases cycleDevice_cases s n with h | ⟨d, -, -, h⟩ <;> simp [h]

@[simp] theorem cycleDevices_status : (cycleDevices s).status = s.status :=
  cycleDevices_induct (P := fun t => t.status = s.status) (fun t n h => by simpa using h) rfl

@[simp] theorem callDevice_ien : (callDevice n s).ien = s.ien := by
  rcases callDevice_cases n s with ⟨-, h⟩ | ⟨d, -, h⟩ <;> simp [h]

@[simp] theorem callDevice_iaq : (callDevice n s).iaq = s.iaq := by
  rcases callDevice_cases n s with ⟨-, h⟩ | ⟨d, -, h⟩ <;> simp [h]

@[simp] theorem callDevice_sleepCycles : (callDevice n s).sleepCycles = s.sleepCycles := by
  rcases callDevice_cases n s with ⟨-, h⟩ | ⟨d, -, h⟩ <;> simp [h]

@[simp] theorem callDevice_status : (callDevice n s).status = s.status := by
  rcases callDevice_cases n s with ⟨-, h⟩ | ⟨d, -, h⟩ <;> simp [h]

@[simp] theorem cycleDevices_reg (r : Reg) : (cycleDevices s).reg r = s.reg r :=
  State.reg_eq_of_regs_eq (cycleDevices_regs s) r
@[simp] theorem cycleDevices_readMem (a : Word) : (cycleDevices s).readMem a = s.readMem a :=
  State.readMem_eq_of_mem_eq (cycleDevices_mem s) a

end

/-- HWI on a device that is attached (R260, R282, R283, R285). -/
theorem execHwi_of_present {a : SrcOperand} {s : State} {d : Device} (h : s.devices[(argVal a s).toNat]? = some d) :
    execHwi a s = .next (((((afterSrc a s).withView (deviceInterrupt d (afterSrc a s).view).2.1).setDevices
      (s.devices.set (argVal a s).toNat (deviceInterrupt d (afterSrc a s).view).1)).enqueueAll
        (deviceInterrupt d (afterSrc a s).view).2.2).setSleep (4 + deviceExtraCycles d + costA a - 1)) := by
  unfold execHwi special extraCyclesAt callDevice
  simp [h]

/-! finishCycle -/

@[simp] theorem finishCycle_sleepCycles (s : State) : (finishCycle s).sleepCycles = s.sleepCycles := by
  unfold finishCycle settleStatus
  rcases s.deliver_cases with h | ⟨m, rest, -, -, -, -, -, h⟩ <;> rw [h] <;> split <;> simp

/-- What delivery, one device's turn and the status keep, the end of every call keeps (R125 to R128). -/
theorem finishCycle_induct {P : State → Prop} (hdel : ∀ s m rest, P s → s.queue = m :: rest → P (s.takeInterrupt m rest))
    (hdev : ∀ s n, P s → P (cycleDevice s n)) (hst : ∀ s v, P s → P (s.setStatus v)) {s : State} (h : P s) :
    P (finishCycle s) := by
  have hd : P s.deliver := by
    rcases s.deliver_cases with e | ⟨m, rest, hq, -, -, -, -, e⟩
    · rwa [e]
    · rw [e]
      exact hdel s m rest h hq
  have hc : P (cycleDevices s.deliver) := cycleDevices_induct hdev hd
  unfold finishCycle settleStatus
  split
  · exact hst _ _ hc
  · exact hc

/-- Everything one `cycle()` call can do (R120 to R127). -/
theorem cycle_cases (s : State) :
    (s.onFire = true ∧ step s = .next (s.setStatus .onFire)) ∨
    (s.onFire = false ∧ s.sleepCycles ≠ 0 ∧ step s = .next (sleepCycle (s.setStatus .ok))) ∨
    (s.onFire = false ∧ s.sleepCycles = 0 ∧ step s = executeCycle (s.setStatus .ok)) := by
  unfold step cycle
  cases hf : s.onFire with
  | true => exact .inl ⟨rfl, by simp⟩
  | false =>
    by_cases hs : s.sleepCycles = 0
    · exact .inr (.inr ⟨rfl, hs, by simp [hs]⟩)
    · exact .inr (.inl ⟨rfl, hs, by simp [hs]⟩)

/-- The call that executes (R122 to R126). -/
theorem executeCycle_next {s t : State} (h : executeCycle s = .next t) :
    ∃ t', exec s.fetchInstr s = .next t' ∧ t = finishCycle t' := by
  unfold executeCycle at h
  split at h
  · rename_i t' he
    exact ⟨t', he, by cases h; rfl⟩
  · cases h
  · cases h

end Sys2Proof.Machine
end

