-- ==== Sys2Proof/Laws/Decode.lean ====
section
/-! SUPPORT. The fields of an encoded word (spec `30_encoding.md` R91 to R94), for the round trip between decoder and encoder. -/

namespace Sys2Proof

@[simp] theorem fieldA_firstWord (a : BitVec 6) (b o : BitVec 5) : fieldA (firstWord a b o) = a := by
  unfold fieldA firstWord
  ext i hi
  simp only [BitVec.getElem_extractLsb', BitVec.getLsbD_append]
  have h1 : ¬10 + i < 5 := by omega
  have h2 : ¬10 + i - 5 < 5 := by omega
  have h3 : 10 + i - 5 - 5 = i := by omega
  rw [if_neg h1, if_neg h2, h3, BitVec.getLsbD_eq_getElem hi]

@[simp] theorem fieldB_firstWord (a : BitVec 6) (b o : BitVec 5) : fieldB (firstWord a b o) = b := by
  unfold fieldB firstWord
  ext i hi
  simp only [BitVec.getElem_extractLsb', BitVec.getLsbD_append]
  have h1 : ¬5 + i < 5 := by omega
  have h2 : 5 + i - 5 < 5 := by omega
  have h3 : 5 + i - 5 = i := by omega
  rw [if_neg h1, if_pos h2, h3, BitVec.getLsbD_eq_getElem hi]

@[simp] theorem fieldO_firstWord (a : BitVec 6) (b o : BitVec 5) : fieldO (firstWord a b o) = o := by
  unfold fieldO firstWord
  ext i hi
  simp only [BitVec.getElem_extractLsb', BitVec.getLsbD_append]
  have h1 : 0 + i < 5 := by omega
  have h2 : 0 + i = i := by omega
  rw [if_pos h1, h2, BitVec.getLsbD_eq_getElem hi]

theorem encodeReg_lt (r : Reg) : encodeReg r < 8 := by cases r <;> decide

theorem encodeOperand_lt (o : Operand) : encodeOperand o < 32 := by
  cases o with
  | reg r => have := encodeReg_lt r; simp only [encodeOperand]; omega
  | regInd r => have := encodeReg_lt r; simp only [encodeOperand]; omega
  | regOff r n => have := encodeReg_lt r; simp only [encodeOperand]; omega
  | peek => decide
  | pick n => exact (by decide : 0x1a < 32)
  | sp => decide
  | pc => decide
  | ex => decide
  | direct n => exact (by decide : 0x1e < 32)
  | lit n => exact (by decide : 0x1f < 32)

/-- `nwf` of a shared form's field value counts the form's next words. -/
theorem nwf_encodeOperand (o : Operand) : nwf (encodeOperand o) = (operandWords o).length := by
  cases o with
  | reg r => cases r <;> rfl
  | regInd r => cases r <;> rfl
  | regOff r n => cases r <;> rfl
  | peek => rfl
  | pick n => rfl
  | sp => rfl
  | pc => rfl
  | ex => rfl
  | direct n => rfl
  | lit n => rfl

theorem nwf_encodeDst (b : DstOperand) : nwf (encodeDst b).toNat = (dstWords b).length := by
  cases b with
  | com o =>
    have := encodeOperand_lt o
    simp only [encodeDst, BitVec.toNat_ofNat, dstWords]
    rw [Nat.mod_eq_of_lt (by omega), nwf_encodeOperand]
  | push => rfl

theorem nwf_of_ge {v : Nat} (h : 0x20 ≤ v) : nwf v = 0 := by
  unfold nwf
  split <;> omega

/-- A well-formed short literal has a field value from 0x20 up (R95, R164). -/
theorem encodeSrc_short {v : Word} (h : (SrcOperand.short v).wf = true) :
    0x20 ≤ (encodeSrc (.short v)).toNat ∧ BitVec.ofNat 16 (encodeSrc (.short v)).toNat - 0x21 = v := by
  have hv : v = 0xFFFF ∨ v.toNat ≤ 30 := by simpa [SrcOperand.wf] using h
  rcases hv with hv | hv
  · subst hv
    decide
  · have h33 : BitVec.toNat (0x21 : Word) = 33 := rfl
    have h1 : (encodeSrc (.short v)).toNat = v.toNat + 33 := by
      simp only [encodeSrc, BitVec.toNat_ofNat, BitVec.toNat_add, h33]
      omega
    refine ⟨by omega, ?_⟩
    apply BitVec.eq_of_toNat_eq
    have := v.isLt
    simp only [h1, BitVec.toNat_sub, BitVec.toNat_ofNat, h33]
    omega

theorem nwf_encodeSrc {a : SrcOperand} (h : a.wf = true) : nwf (encodeSrc a).toNat = (srcWords a).length := by
  cases a with
  | com o =>
    have := encodeOperand_lt o
    simp only [encodeSrc, BitVec.toNat_ofNat, srcWords]
    rw [Nat.mod_eq_of_lt (by omega), nwf_encodeOperand]
  | pop => rfl
  | short v => exact nwf_of_ge (encodeSrc_short h).1

/-- R93 agrees with the encoder on a basic instruction. -/
theorem wordLength_basic {o : BitVec 5} (ho : o ≠ 0) (b : DstOperand) {a : SrcOperand} (h : a.wf = true) :
    wordLength (basicWord o b a) = (encodeBasic o b a).length := by
  simp only [wordLength, basicWord, fieldO_firstWord, fieldA_firstWord, fieldB_firstWord, if_neg ho, nwf_encodeSrc h,
    nwf_encodeDst, encodeBasic, List.length_cons, List.length_append]
  omega

/-- R93 agrees with the encoder on a special instruction. -/
theorem wordLength_special (so : BitVec 5) {a : SrcOperand} (h : a.wf = true) :
    wordLength (specialWord so a) = (encodeSpecial so a).length := by
  simp only [wordLength, specialWord, fieldO_firstWord, fieldA_firstWord, if_true, nwf_encodeSrc h, encodeSpecial,
    List.length_cons]
  omega

@[simp] theorem decodeReg_encodeReg (r : Reg) : decodeReg (BitVec.ofNat 3 (encodeReg r)) = r := by cases r <;> rfl

end Sys2Proof
end

