-- ==== Sys2Proof/Laws/Flags.lean ====
section
/-! SUPPORT. Reduction modulo 65536 (R11) commutes with the ring operations; what the EX values are without the exact integers. -/

namespace Sys2Proof.Machine

theorem word_natCast (n : Nat) : word (n : Int) = BitVec.ofNat 16 n := by simp [word]

@[simp] theorem word_u (v : Word) : word (u v) = v := by simp [u, word]

@[simp] theorem word_sgn (v : Word) : word (sgn v) = v := by simp [sgn, word]

theorem word_add (x y : Int) : word (x + y) = word x + word y := by simp [word, BitVec.ofInt_add]

theorem word_neg (x : Int) : word (-x) = -word x := by simp [word, BitVec.ofInt_neg]

theorem word_sub (x y : Int) : word (x - y) = word x - word y := by
  rw [Int.sub_eq_add_neg, word_add, word_neg]
  exact (BitVec.sub_eq_add_neg _ _).symm

theorem highWord_eq (t : Int) : highWord t = word (t / 65536) := by
  rw [highWord, Int.shiftRight_eq_div_pow]
  rfl

end Sys2Proof.Machine
end

