-- ==== Sys2Proof/Laws/PerInstr.lean ====
section
/-! SUPPORT. The per-instruction family: the encoder's word count is the length R93 computes from the first word. -/

namespace Sys2Proof.Laws.EncodedLength

/-- The length of `i` in words is what its first word alone says (R90, R93). -/
def Statement (i : Instr) : Prop :=
  i.wf = true → ∃ w ws, encode i = w :: ws ∧ (encode i).length = wordLength w

theorem of_basic {o : BitVec 5} (ho : o ≠ 0) {b : DstOperand} {a : SrcOperand} (h : a.wf = true) :
    ∃ w ws, encodeBasic o b a = w :: ws ∧ (encodeBasic o b a).length = wordLength w :=
  ⟨basicWord o b a, srcWords a ++ dstWords b, rfl, (wordLength_basic ho b h).symm⟩

theorem of_special {so : BitVec 5} {a : SrcOperand} (h : a.wf = true) :
    ∃ w ws, encodeSpecial so a = w :: ws ∧ (encodeSpecial so a).length = wordLength w :=
  ⟨specialWord so a, srcWords a, rfl, (wordLength_special so h).symm⟩

theorem set (b : DstOperand) (a : SrcOperand) : Statement (.set b a) := fun h => of_basic (by decide) h
theorem add (b : DstOperand) (a : SrcOperand) : Statement (.add b a) := fun h => of_basic (by decide) h
theorem sub (b : DstOperand) (a : SrcOperand) : Statement (.sub b a) := fun h => of_basic (by decide) h
theorem mul (b : DstOperand) (a : SrcOperand) : Statement (.mul b a) := fun h => of_basic (by decide) h
theorem mli (b : DstOperand) (a : SrcOperand) : Statement (.mli b a) := fun h => of_basic (by decide) h
theorem div (b : DstOperand) (a : SrcOperand) : Statement (.div b a) := fun h => of_basic (by decide) h
theorem dvi (b : DstOperand) (a : SrcOperand) : Statement (.dvi b a) := fun h => of_basic (by decide) h
theorem mod (b : DstOperand) (a : SrcOperand) : Statement (.mod b a) := fun h => of_basic (by decide) h
theorem mdi (b : DstOperand) (a : SrcOperand) : Statement (.mdi b a) := fun h => of_basic (by decide) h
theorem and (b : DstOperand) (a : SrcOperand) : Statement (.and b a) := fun h => of_basic (by decide) h
theorem bor (b : DstOperand) (a : SrcOperand) : Statement (.bor b a) := fun h => of_basic (by decide) h
theorem xor (b : DstOperand) (a : SrcOperand) : Statement (.xor b a) := fun h => of_basic (by decide) h
theorem shr (b : DstOperand) (a : SrcOperand) : Statement (.shr b a) := fun h => of_basic (by decide) h
theorem asr (b : DstOperand) (a : SrcOperand) : Statement (.asr b a) := fun h => of_basic (by decide) h
theorem shl (b : DstOperand) (a : SrcOperand) : Statement (.shl b a) := fun h => of_basic (by decide) h
theorem ifb (b : DstOperand) (a : SrcOperand) : Statement (.ifb b a) := fun h => of_basic (by decide) h
theorem ifc (b : DstOperand) (a : SrcOperand) : Statement (.ifc b a) := fun h => of_basic (by decide) h
theorem ife (b : DstOperand) (a : SrcOperand) : Statement (.ife b a) := fun h => of_basic (by decide) h
theorem ifn (b : DstOperand) (a : SrcOperand) : Statement (.ifn b a) := fun h => of_basic (by decide) h
theorem ifg (b : DstOperand) (a : SrcOperand) : Statement (.ifg b a) := fun h => of_basic (by decide) h
theorem ifa (b : DstOperand) (a : SrcOperand) : Statement (.ifa b a) := fun h => of_basic (by decide) h
theorem ifl (b : DstOperand) (a : SrcOperand) : Statement (.ifl b a) := fun h => of_basic (by decide) h
theorem ifu (b : DstOperand) (a : SrcOperand) : Statement (.ifu b a) := fun h => of_basic (by decide) h
theorem adx (b : DstOperand) (a : SrcOperand) : Statement (.adx b a) := fun h => of_basic (by decide) h
theorem sbx (b : DstOperand) (a : SrcOperand) : Statement (.sbx b a) := fun h => of_basic (by decide) h
theorem sti (b : DstOperand) (a : SrcOperand) : Statement (.sti b a) := fun h => of_basic (by decide) h
theorem std (b : DstOperand) (a : SrcOperand) : Statement (.std b a) := fun h => of_basic (by decide) h
theorem reservedBasic18 (b : DstOperand) (a : SrcOperand) : Statement (.reservedBasic18 b a) := fun h => of_basic (by decide) h
theorem reservedBasic19 (b : DstOperand) (a : SrcOperand) : Statement (.reservedBasic19 b a) := fun h => of_basic (by decide) h
theorem reservedBasic1c (b : DstOperand) (a : SrcOperand) : Statement (.reservedBasic1c b a) := fun h => of_basic (by decide) h
theorem reservedBasic1d (b : DstOperand) (a : SrcOperand) : Statement (.reservedBasic1d b a) := fun h => of_basic (by decide) h
theorem jsr (a : SrcOperand) : Statement (.jsr a) := fun h => of_special h
theorem int (a : SrcOperand) : Statement (.int a) := fun h => of_special h
theorem iag (a : SrcOperand) : Statement (.iag a) := fun h => of_special h
theorem ias (a : SrcOperand) : Statement (.ias a) := fun h => of_special h
theorem rfi (a : SrcOperand) : Statement (.rfi a) := fun h => of_special h
theorem iaq (a : SrcOperand) : Statement (.iaq a) := fun h => of_special h
theorem hwn (a : SrcOperand) : Statement (.hwn a) := fun h => of_special h
theorem hwq (a : SrcOperand) : Statement (.hwq a) := fun h => of_special h
theorem hwi (a : SrcOperand) : Statement (.hwi a) := fun h => of_special h
theorem reservedSpecial00 (a : SrcOperand) : Statement (.reservedSpecial00 a) := fun h => of_special h
theorem reservedSpecial02 (a : SrcOperand) : Statement (.reservedSpecial02 a) := fun h => of_special h
theorem reservedSpecial03 (a : SrcOperand) : Statement (.reservedSpecial03 a) := fun h => of_special h
theorem reservedSpecial04 (a : SrcOperand) : Statement (.reservedSpecial04 a) := fun h => of_special h
theorem reservedSpecial05 (a : SrcOperand) : Statement (.reservedSpecial05 a) := fun h => of_special h
theorem reservedSpecial06 (a : SrcOperand) : Statement (.reservedSpecial06 a) := fun h => of_special h
theorem reservedSpecial07 (a : SrcOperand) : Statement (.reservedSpecial07 a) := fun h => of_special h
theorem reservedSpecial0d (a : SrcOperand) : Statement (.reservedSpecial0d a) := fun h => of_special h
theorem reservedSpecial0e (a : SrcOperand) : Statement (.reservedSpecial0e a) := fun h => of_special h
theorem reservedSpecial0f (a : SrcOperand) : Statement (.reservedSpecial0f a) := fun h => of_special h
theorem reservedSpecial13 (a : SrcOperand) : Statement (.reservedSpecial13 a) := fun h => of_special h
theorem reservedSpecial14 (a : SrcOperand) : Statement (.reservedSpecial14 a) := fun h => of_special h
theorem reservedSpecial15 (a : SrcOperand) : Statement (.reservedSpecial15 a) := fun h => of_special h
theorem reservedSpecial16 (a : SrcOperand) : Statement (.reservedSpecial16 a) := fun h => of_special h
theorem reservedSpecial17 (a : SrcOperand) : Statement (.reservedSpecial17 a) := fun h => of_special h
theorem reservedSpecial18 (a : SrcOperand) : Statement (.reservedSpecial18 a) := fun h => of_special h
theorem reservedSpecial19 (a : SrcOperand) : Statement (.reservedSpecial19 a) := fun h => of_special h
theorem reservedSpecial1a (a : SrcOperand) : Statement (.reservedSpecial1a a) := fun h => of_special h
theorem reservedSpecial1b (a : SrcOperand) : Statement (.reservedSpecial1b a) := fun h => of_special h
theorem reservedSpecial1c (a : SrcOperand) : Statement (.reservedSpecial1c a) := fun h => of_special h
theorem reservedSpecial1d (a : SrcOperand) : Statement (.reservedSpecial1d a) := fun h => of_special h
theorem reservedSpecial1e (a : SrcOperand) : Statement (.reservedSpecial1e a) := fun h => of_special h
theorem reservedSpecial1f (a : SrcOperand) : Statement (.reservedSpecial1f a) := fun h => of_special h

end Sys2Proof.Laws.EncodedLength
end

