-- ==== Sys2Proof/Tests/Slice0.lean ====
section
/-! SUPPORT. The model's own tests: the smoke test of well-formedness, a word written out for every row of the opcode table, one step
per instruction against `spec/95_test_vectors.md`, and a witness for the hypotheses of every statement that has some. -/

namespace Sys2Proof.Tests

open Sys2Proof.Machine

/-! ### Helpers -/

/-- The machine after reset with words stored from address 0 (a program the host has flashed). -/
def fresh (ws : List Word) : State := State.reset.storeWords 0 ws

/-- The state after one call; a stop gives reset with the CPU on fire, which no test below expects. -/
def after (s : State) : State :=
  match step s with
  | .next t => t
  | .fault _ => State.reset.setOnFire true
  | .refused _ => State.reset.setOnFire true

/-- `OP B, A` with the first word `w`, after one call. -/
def binary (w b a ex : Word) : State := after ((((fresh [w]).setReg .b b).setReg .a a).setEx ex)

/-- The machine after reset with devices attached and words flashed. -/
def withDevices (ds : List Device) (ws : List Word) : State := (fresh ws).setDevices ds

/-- A loaded floppy controller whose image is all zero. -/
def loaded : Floppy := { Floppy.fresh with state := .ready, image := some [] }

/-- 256 pending messages. -/
def fullQueue : List Word := List.replicate 256 7

/-! ### Well-formedness: the check refuses what no encoding has -/

theorem test_wf_short_largest : (Instr.set (.com (.reg .a)) (.short 30)).wf = true := by decide
theorem test_wf_short_minus_one : (Instr.jsr (.short 0xFFFF)).wf = true := by decide
theorem test_wf_refuses_31 : (Instr.set (.com (.reg .a)) (.short 31)).wf = false := by decide
theorem test_wf_refuses_minus_two : (Instr.hwi (.short 0xFFFE)).wf = false := by decide
theorem test_wf_literal_destination_is_legal : (Instr.set (.com (.lit 0x1234)) .pop).wf = true := by decide

/-! ### Decoding: one word written out from R91, R92, R94, R96, R97 for every row of the table -/

/-- The words decode to the instruction and nothing is left over. -/
def decodesTo (ws : List Word) (i : Instr) : Bool :=
  match decodeList ws with
  | .ok r => decide (r = (i, []))
  | .error _ => false

theorem test_decode_set : decodesTo [0b000000_00001_00001] (.set (.com (.reg .b)) (.com (.reg .a))) := by decide
theorem test_decode_add : decodesTo [0b100001_01110_00010] (.add (.com (.regInd .i)) (.short 0)) := by decide
theorem test_decode_sub : decodesTo [0b001010_10111_00011, 0x0010] (.sub (.com (.regOff .j 0x0010)) (.com (.regInd .c))) := by decide
theorem test_decode_mul : decodesTo [0b010011_11000_00100, 0xFFFF] (.mul .push (.com (.regOff .x 0xFFFF))) := by decide
theorem test_decode_mli : decodesTo [0b011000_11001_00101] (.mli (.com .peek) .pop) := by decide
theorem test_decode_div : decodesTo [0b011001_11010_00110, 0x0020] (.div (.com (.pick 0x0020)) (.com .peek)) := by decide
theorem test_decode_dvi : decodesTo [0b111111_11011_00111] (.dvi (.com .sp) (.short 30)) := by decide
theorem test_decode_mod : decodesTo [0b011010_11100_01000, 0x0001] (.mod (.com .pc) (.com (.pick 0x0001))) := by decide
theorem test_decode_mdi : decodesTo [0b011011_11101_01001] (.mdi (.com .ex) (.com .sp)) := by decide
theorem test_decode_and : decodesTo [0b011100_11110_01010, 0x2000] (.and (.com (.direct 0x2000)) (.com .pc)) := by decide
theorem test_decode_bor : decodesTo [0b011101_11111_01011, 0x0005] (.bor (.com (.lit 0x0005)) (.com .ex)) := by decide
theorem test_decode_xor : decodesTo [0b011110_00101_01100, 0x3000] (.xor (.com (.reg .z)) (.com (.direct 0x3000))) := by decide
theorem test_decode_shr : decodesTo [0b100000_00001_01101] (.shr (.com (.reg .b)) (.short 0xFFFF)) := by decide
theorem test_decode_asr : decodesTo [0b011111_01110_01110, 0x8000] (.asr (.com (.regInd .i)) (.com (.lit 0x8000))) := by decide
theorem test_decode_shl : decodesTo [0b000100_10111_01111, 0x0010] (.shl (.com (.regOff .j 0x0010)) (.com (.reg .y))) := by decide
theorem test_decode_ifb : decodesTo [0b000000_11000_10000] (.ifb .push (.com (.reg .a))) := by decide
theorem test_decode_ifc : decodesTo [0b100001_11001_10001] (.ifc (.com .peek) (.short 0)) := by decide
theorem test_decode_ife : decodesTo [0b001010_11010_10010, 0x0020] (.ife (.com (.pick 0x0020)) (.com (.regInd .c))) := by decide
theorem test_decode_ifn : decodesTo [0b010011_11011_10011, 0xFFFF] (.ifn (.com .sp) (.com (.regOff .x 0xFFFF))) := by decide
theorem test_decode_ifg : decodesTo [0b011000_11100_10100] (.ifg (.com .pc) .pop) := by decide
theorem test_decode_ifa : decodesTo [0b011001_11101_10101] (.ifa (.com .ex) (.com .peek)) := by decide
theorem test_decode_ifl : decodesTo [0b111111_11110_10110, 0x2000] (.ifl (.com (.direct 0x2000)) (.short 30)) := by decide
theorem test_decode_ifu : decodesTo [0b011010_11111_10111, 0x0001, 0x0005] (.ifu (.com (.lit 0x0005)) (.com (.pick 0x0001))) := by decide
theorem test_decode_adx : decodesTo [0b011011_00101_11010] (.adx (.com (.reg .z)) (.com .sp)) := by decide
theorem test_decode_sbx : decodesTo [0b011100_00001_11011] (.sbx (.com (.reg .b)) (.com .pc)) := by decide
theorem test_decode_sti : decodesTo [0b011101_01110_11110] (.sti (.com (.regInd .i)) (.com .ex)) := by decide
theorem test_decode_std : decodesTo [0b011110_10111_11111, 0x3000, 0x0010] (.std (.com (.regOff .j 0x0010)) (.com (.direct 0x3000))) := by decide
theorem test_decode_reserved_basic18 : decodesTo [0b100000_11000_11000] (.reservedBasic18 .push (.short 0xFFFF)) := by decide
theorem test_decode_reserved_basic19 : decodesTo [0b011111_11001_11001, 0x8000] (.reservedBasic19 (.com .peek) (.com (.lit 0x8000))) := by decide
theorem test_decode_reserved_basic1c : decodesTo [0b000100_11010_11100, 0x0020] (.reservedBasic1c (.com (.pick 0x0020)) (.com (.reg .y))) := by decide
theorem test_decode_reserved_basic1d : decodesTo [0b000000_11011_11101] (.reservedBasic1d (.com .sp) (.com (.reg .a))) := by decide
theorem test_decode_jsr : decodesTo [0b100001_00001_00000] (.jsr (.short 0)) := by decide
theorem test_decode_int : decodesTo [0b001010_01000_00000] (.int (.com (.regInd .c))) := by decide
theorem test_decode_iag : decodesTo [0b010011_01001_00000, 0xFFFF] (.iag (.com (.regOff .x 0xFFFF))) := by decide
theorem test_decode_ias : decodesTo [0b011000_01010_00000] (.ias .pop) := by decide
theorem test_decode_rfi : decodesTo [0b011001_01011_00000] (.rfi (.com .peek)) := by decide
theorem test_decode_iaq : decodesTo [0b111111_01100_00000] (.iaq (.short 30)) := by decide
theorem test_decode_hwn : decodesTo [0b011010_10000_00000, 0x0001] (.hwn (.com (.pick 0x0001))) := by decide
theorem test_decode_hwq : decodesTo [0b011011_10001_00000] (.hwq (.com .sp)) := by decide
theorem test_decode_hwi : decodesTo [0b011100_10010_00000] (.hwi (.com .pc)) := by decide
theorem test_decode_reserved_special00 : decodesTo [0b011101_00000_00000] (.reservedSpecial00 (.com .ex)) := by decide
theorem test_decode_reserved_special02 : decodesTo [0b011110_00010_00000, 0x3000] (.reservedSpecial02 (.com (.direct 0x3000))) := by decide
theorem test_decode_reserved_special03 : decodesTo [0b100000_00011_00000] (.reservedSpecial03 (.short 0xFFFF)) := by decide
theorem test_decode_reserved_special04 : decodesTo [0b011111_00100_00000, 0x8000] (.reservedSpecial04 (.com (.lit 0x8000))) := by decide
theorem test_decode_reserved_special05 : decodesTo [0b000100_00101_00000] (.reservedSpecial05 (.com (.reg .y))) := by decide
theorem test_decode_reserved_special06 : decodesTo [0b000000_00110_00000] (.reservedSpecial06 (.com (.reg .a))) := by decide
theorem test_decode_reserved_special07 : decodesTo [0b100001_00111_00000] (.reservedSpecial07 (.short 0)) := by decide
theorem test_decode_reserved_special0d : decodesTo [0b001010_01101_00000] (.reservedSpecial0d (.com (.regInd .c))) := by decide
theorem test_decode_reserved_special0e : decodesTo [0b010011_01110_00000, 0xFFFF] (.reservedSpecial0e (.com (.regOff .x 0xFFFF))) := by decide
theorem test_decode_reserved_special0f : decodesTo [0b011000_01111_00000] (.reservedSpecial0f .pop) := by decide
theorem test_decode_reserved_special13 : decodesTo [0b011001_10011_00000] (.reservedSpecial13 (.com .peek)) := by decide
theorem test_decode_reserved_special14 : decodesTo [0b111111_10100_00000] (.reservedSpecial14 (.short 30)) := by decide
theorem test_decode_reserved_special15 : decodesTo [0b011010_10101_00000, 0x0001] (.reservedSpecial15 (.com (.pick 0x0001))) := by decide
theorem test_decode_reserved_special16 : decodesTo [0b011011_10110_00000] (.reservedSpecial16 (.com .sp)) := by decide
theorem test_decode_reserved_special17 : decodesTo [0b011100_10111_00000] (.reservedSpecial17 (.com .pc)) := by decide
theorem test_decode_reserved_special18 : decodesTo [0b011101_11000_00000] (.reservedSpecial18 (.com .ex)) := by decide
theorem test_decode_reserved_special19 : decodesTo [0b011110_11001_00000, 0x3000] (.reservedSpecial19 (.com (.direct 0x3000))) := by decide
theorem test_decode_reserved_special1a : decodesTo [0b100000_11010_00000] (.reservedSpecial1a (.short 0xFFFF)) := by decide
theorem test_decode_reserved_special1b : decodesTo [0b011111_11011_00000, 0x8000] (.reservedSpecial1b (.com (.lit 0x8000))) := by decide
theorem test_decode_reserved_special1c : decodesTo [0b000100_11100_00000] (.reservedSpecial1c (.com (.reg .y))) := by decide
theorem test_decode_reserved_special1d : decodesTo [0b000000_11101_00000] (.reservedSpecial1d (.com (.reg .a))) := by decide
theorem test_decode_reserved_special1e : decodesTo [0b100001_11110_00000] (.reservedSpecial1e (.short 0)) := by decide
theorem test_decode_reserved_special1f : decodesTo [0b001010_11111_00000] (.reservedSpecial1f (.com (.regInd .c))) := by decide

theorem test_decode_truncated : decodeList [0x7C01] = .error .truncated := by decide
theorem test_encode_three_words :
    encode (.set (.com (.direct 0x2000)) (.com (.lit 0x5555))) = [0x7FC1, 0x5555, 0x2000] := by decide

/-! ### The fixed names of the host -/

theorem test_table_word_set : decodeTableWord 16 0x9801 = some (.set (.com (.reg .a)) (.short 5)) := by decide
/-- `7C20 0100`: the second word is bits 31..16. -/
theorem test_table_word_jsr : decodeTableWord 32 0x01007C20 = some (.jsr (.com (.lit 0x0100))) := by decide
/-- The operand word has no bits in the table: it is zero. -/
theorem test_table_word_short : decodeTableWord 16 0x7C20 = some (.jsr (.com (.lit 0))) := by decide
theorem test_with_fetch_word : (after (State.reset.withFetchWord 16 0x9801)).reg .a = 5 := by decide
theorem test_with_fetch_word_two : (after (State.reset.withFetchWord 32 0x12347C01)).reg .a = 0x1234 := by decide

/-! ### One step per instruction, words and values of `spec/95_test_vectors.md` -/

theorem test_set :
    (binary 0x0021 0x0000 0xABCD 0x0077).reg .b = 0xABCD ∧ (binary 0x0021 0x0000 0xABCD 0x0077).ex = 0x0077 ∧ (binary 0x0021 0x0000 0xABCD 0x0077).sleepCycles = 0 := by
  decide
theorem test_add_carry :
    (binary 0x0022 0xFFFF 0xFFFF 0x0000).reg .b = 0xFFFE ∧ (binary 0x0022 0xFFFF 0xFFFF 0x0000).ex = 0x0001 ∧ (binary 0x0022 0xFFFF 0xFFFF 0x0000).sleepCycles = 1 := by
  decide
theorem test_add_no_signed_carry :
    (binary 0x0022 0x7FFF 0x0001 0x0005).reg .b = 0x8000 ∧ (binary 0x0022 0x7FFF 0x0001 0x0005).ex = 0x0000 ∧ (binary 0x0022 0x7FFF 0x0001 0x0005).sleepCycles = 1 := by
  decide
theorem test_sub_borrow :
    (binary 0x0023 0x8000 0x8001 0x0000).reg .b = 0xFFFF ∧ (binary 0x0023 0x8000 0x8001 0x0000).ex = 0xFFFF ∧ (binary 0x0023 0x8000 0x8001 0x0000).sleepCycles = 1 := by
  decide
theorem test_sub_equal :
    (binary 0x0023 0x0005 0x0005 0x0009).reg .b = 0x0000 ∧ (binary 0x0023 0x0005 0x0005 0x0009).ex = 0x0000 ∧ (binary 0x0023 0x0005 0x0005 0x0009).sleepCycles = 1 := by
  decide
theorem test_mul :
    (binary 0x0024 0xFFFF 0xFFFF 0x0000).reg .b = 0x0001 ∧ (binary 0x0024 0xFFFF 0xFFFF 0x0000).ex = 0xFFFE ∧ (binary 0x0024 0xFFFF 0xFFFF 0x0000).sleepCycles = 1 := by
  decide
theorem test_mli :
    (binary 0x0025 0x8000 0x7FFF 0x0000).reg .b = 0x8000 ∧ (binary 0x0025 0x8000 0x7FFF 0x0000).ex = 0xC000 ∧ (binary 0x0025 0x8000 0x7FFF 0x0000).sleepCycles = 1 := by
  decide
theorem test_mli_minus_one :
    (binary 0x0025 0xFFFF 0x0002 0x0000).reg .b = 0xFFFE ∧ (binary 0x0025 0xFFFF 0x0002 0x0000).ex = 0xFFFF ∧ (binary 0x0025 0xFFFF 0x0002 0x0000).sleepCycles = 1 := by
  decide
theorem test_div :
    (binary 0x0026 0x0007 0x0002 0x0000).reg .b = 0x0003 ∧ (binary 0x0026 0x0007 0x0002 0x0000).ex = 0x8000 ∧ (binary 0x0026 0x0007 0x0002 0x0000).sleepCycles = 2 := by
  decide
theorem test_div_by_zero :
    (binary 0x0026 0x1234 0x0000 0x0009).reg .b = 0x0000 ∧ (binary 0x0026 0x1234 0x0000 0x0009).ex = 0x0000 ∧ (binary 0x0026 0x1234 0x0000 0x0009).sleepCycles = 2 := by
  decide
theorem test_dvi :
    (binary 0x0027 0xFFF9 0x0002 0x0000).reg .b = 0xFFFD ∧ (binary 0x0027 0xFFF9 0x0002 0x0000).ex = 0x8000 ∧ (binary 0x0027 0xFFF9 0x0002 0x0000).sleepCycles = 2 := by
  decide
theorem test_dvi_overflow :
    (binary 0x0027 0x8000 0xFFFF 0x0005).reg .b = 0x8000 ∧ (binary 0x0027 0x8000 0xFFFF 0x0005).ex = 0x0000 ∧ (binary 0x0027 0x8000 0xFFFF 0x0005).sleepCycles = 2 := by
  decide
theorem test_mod :
    (binary 0x0028 0xFFFF 0x0010 0x0055).reg .b = 0x000F ∧ (binary 0x0028 0xFFFF 0x0010 0x0055).ex = 0x0055 ∧ (binary 0x0028 0xFFFF 0x0010 0x0055).sleepCycles = 2 := by
  decide
theorem test_mod_by_zero :
    (binary 0x0028 0x0007 0x0000 0x0055).reg .b = 0x0000 ∧ (binary 0x0028 0x0007 0x0000 0x0055).ex = 0x0055 ∧ (binary 0x0028 0x0007 0x0000 0x0055).sleepCycles = 2 := by
  decide
theorem test_mdi :
    (binary 0x0029 0xFFF9 0x0010 0x0055).reg .b = 0xFFF9 ∧ (binary 0x0029 0xFFF9 0x0010 0x0055).ex = 0x0055 ∧ (binary 0x0029 0xFFF9 0x0010 0x0055).sleepCycles = 2 := by
  decide
theorem test_mdi_negative_divisor :
    (binary 0x0029 0x0007 0xFFFD 0x0055).reg .b = 0x0001 ∧ (binary 0x0029 0x0007 0xFFFD 0x0055).ex = 0x0055 ∧ (binary 0x0029 0x0007 0xFFFD 0x0055).sleepCycles = 2 := by
  decide
theorem test_and :
    (binary 0x002A 0xF0F0 0xFF00 0x0055).reg .b = 0xF000 ∧ (binary 0x002A 0xF0F0 0xFF00 0x0055).ex = 0x0055 ∧ (binary 0x002A 0xF0F0 0xFF00 0x0055).sleepCycles = 0 := by
  decide
theorem test_bor :
    (binary 0x002B 0xF0F0 0x0F00 0x0055).reg .b = 0xFFF0 ∧ (binary 0x002B 0xF0F0 0x0F00 0x0055).ex = 0x0055 ∧ (binary 0x002B 0xF0F0 0x0F00 0x0055).sleepCycles = 0 := by
  decide
theorem test_xor :
    (binary 0x002C 0xFFFF 0x0F0F 0x0055).reg .b = 0xF0F0 ∧ (binary 0x002C 0xFFFF 0x0F0F 0x0055).ex = 0x0055 ∧ (binary 0x002C 0xFFFF 0x0F0F 0x0055).sleepCycles = 0 := by
  decide
theorem test_shr :
    (binary 0x002D 0x8001 0x0001 0x0000).reg .b = 0x4000 ∧ (binary 0x002D 0x8001 0x0001 0x0000).ex = 0x8000 ∧ (binary 0x002D 0x8001 0x0001 0x0000).sleepCycles = 0 := by
  decide
theorem test_shr_17 :
    (binary 0x002D 0xFFFF 0x0011 0x0000).reg .b = 0x0000 ∧ (binary 0x002D 0xFFFF 0x0011 0x0000).ex = 0x7FFF ∧ (binary 0x002D 0xFFFF 0x0011 0x0000).sleepCycles = 0 := by
  decide
theorem test_asr :
    (binary 0x002E 0xF234 0x0004 0x0000).reg .b = 0xFF23 ∧ (binary 0x002E 0xF234 0x0004 0x0000).ex = 0x4000 ∧ (binary 0x002E 0xF234 0x0004 0x0000).sleepCycles = 0 := by
  decide
theorem test_asr_17 :
    (binary 0x002E 0x8000 0x0011 0x0000).reg .b = 0xFFFF ∧ (binary 0x002E 0x8000 0x0011 0x0000).ex = 0x4000 ∧ (binary 0x002E 0x8000 0x0011 0x0000).sleepCycles = 0 := by
  decide
theorem test_shl :
    (binary 0x002F 0x8001 0x0001 0x0000).reg .b = 0x0002 ∧ (binary 0x002F 0x8001 0x0001 0x0000).ex = 0x0001 ∧ (binary 0x002F 0x8001 0x0001 0x0000).sleepCycles = 0 := by
  decide
theorem test_shl_31 :
    (binary 0x002F 0xFFFF 0x001F 0x0000).reg .b = 0x0000 ∧ (binary 0x002F 0xFFFF 0x001F 0x0000).ex = 0x8000 ∧ (binary 0x002F 0xFFFF 0x001F 0x0000).sleepCycles = 0 := by
  decide
theorem test_adx :
    (binary 0x003A 0xFFFF 0xFFFF 0xFFFF).reg .b = 0xFFFD ∧ (binary 0x003A 0xFFFF 0xFFFF 0xFFFF).ex = 0x0001 ∧ (binary 0x003A 0xFFFF 0xFFFF 0xFFFF).sleepCycles = 2 := by
  decide
theorem test_sbx_underflow :
    (binary 0x003B 0x0003 0x0005 0x0001).reg .b = 0xFFFF ∧ (binary 0x003B 0x0003 0x0005 0x0001).ex = 0xFFFF ∧ (binary 0x003B 0x0003 0x0005 0x0001).sleepCycles = 2 := by
  decide
theorem test_sbx_overflow :
    (binary 0x003B 0x0005 0x0003 0xFFFF).reg .b = 0x0001 ∧ (binary 0x003B 0x0005 0x0003 0xFFFF).ex = 0x0001 ∧ (binary 0x003B 0x0005 0x0003 0xFFFF).sleepCycles = 2 := by
  decide

/-- `STI [I], [J]`: the addresses are the old ones. -/
theorem test_sti :
    let s := ((((fresh [0x3DDE]).setReg .i 0x2000).setReg .j 0x3000).writeMem 0x3000 0xAA)
    (after s).readMem 0x2000 = 0xAA ∧ (after s).reg .i = 0x2001 ∧ (after s).reg .j = 0x3001 := by decide
/-- `STI I, 5`: stored, then stepped. -/
theorem test_sti_into_i :
    let s := ((fresh [0x98DE]).setReg .i 0x100).setReg .j 0xFFFF
    (after s).reg .i = 6 ∧ (after s).reg .j = 0 := by decide
/-- `STD J, 5`. -/
theorem test_std : let s := ((fresh [0x98FF]).setReg .j 9); (after s).reg .j = 4 ∧ (after s).reg .i = 0xFFFF := by decide
/-- `ADD EX, 1`: the carry goes over the sum. -/
theorem test_add_ex : (after ((fresh [0x8BA2]).setEx 0xFFFF)).ex = 1 := by decide
/-- `SET PUSH, POP`: a first. -/
theorem test_set_push_pop :
    let s := ((fresh [0x6301]).setSp 0x100).writeMem 0x100 0x77
    (after s).sp = 0x100 ∧ (after s).readMem 0x100 = 0x77 ∧ (after s).readMem 0xFF = 0 := by decide
/-- `SET PUSH, SP`: values are read after both operands are resolved. -/
theorem test_set_push_sp : (after ((fresh [0x6F01]).setSp 0x100)).readMem 0xFF = 0xFF := by decide
/-- `SET X, PC`. -/
theorem test_set_from_pc : (after (fresh [0x7061])).reg .x = 1 := by decide
/-- `ADD 1, 0xFFFF`: the write is dropped, EX is not. -/
theorem test_add_literal : (after (fresh [0x83E2, 0x0001])).ex = 1 := by decide
/-- An instruction across the top of memory. -/
theorem test_straddle :
    let s := ((State.reset.writeMem 0xFFFF 0x7C01).writeMem 0 0x1234).setPc 0xFFFF
    (after s).reg .a = 0x1234 ∧ (after s).pc = 1 ∧ (after s).sleepCycles = 1 := by decide

/-! The conditionals: a test that passes goes to 1, one that fails to 2 (the word at 1 is `SET X, 1`). -/

/-- Where the conditional `OP B, A` with first word `w` goes. -/
def branch (w b a : Word) : Word × Nat :=
  let t := after (((fresh [w, 0x8861]).setReg .b b).setReg .a a)
  (t.pc, t.sleepCycles)

theorem test_ifb : branch 0x0030 0x0005 0x0005 = (1, 1) ∧ branch 0x0030 0x00F0 0x000F = (2, 2) := by decide
theorem test_ifc : branch 0x0031 0x00F0 0x000F = (1, 1) ∧ branch 0x0031 0x0005 0x0005 = (2, 2) := by decide
theorem test_ife : branch 0x0032 0x0005 0x0005 = (1, 1) ∧ branch 0x0032 0xFFFF 0x0001 = (2, 2) := by decide
theorem test_ifn : branch 0x0033 0xFFFF 0x0001 = (1, 1) ∧ branch 0x0033 0x0005 0x0005 = (2, 2) := by decide
theorem test_ifg : branch 0x0034 0xFFFF 0x0001 = (1, 1) ∧ branch 0x0034 0x0001 0xFFFF = (2, 2) := by decide
theorem test_ifa : branch 0x0035 0x0001 0xFFFF = (1, 1) ∧ branch 0x0035 0xFFFF 0x0001 = (2, 2) := by decide
theorem test_ifl : branch 0x0036 0x0001 0xFFFF = (1, 1) ∧ branch 0x0036 0x0005 0x0005 = (2, 2) := by decide
theorem test_ifu : branch 0x0037 0x8000 0x7FFF = (1, 1) ∧ branch 0x0037 0x0001 0xFFFF = (2, 2) := by decide
/-- `IFE A,1 / IFE B,2 / IFN C,0x1234 / SET [0x2000],0x5555`: the first test fails and the chain is skipped. -/
theorem test_skip_chain :
    let t := after (fresh [0x8812, 0x8C32, 0x7C53, 0x1234, 0x7FC1, 0x5555, 0x2000, 0x8861])
    t.pc = 7 ∧ t.sleepCycles = 4 ∧ t.readMem 0x2000 = 0 := by decide
/-- `IFN A,0 / SET PUSH,POP`: a skipped operand does not move SP. -/
theorem test_skip_keeps_sp : (after ((fresh [0x8413, 0x6301]).setSp 0x100)).sp = 0x100 := by decide

/-! Special instructions -/

theorem test_jsr :
    let t := after (fresh [0x7C20, 0x0100])
    t.pc = 0x100 ∧ t.sp = 0xFFFF ∧ t.readMem 0xFFFF = 2 ∧ t.sleepCycles = 3 := by decide
/-- `JSR POP`: a is read before the push. -/
theorem test_jsr_pop :
    let t := after (((fresh [0x6020]).setSp 0xFFFE).writeMem 0xFFFE 0x300)
    t.pc = 0x300 ∧ t.sp = 0xFFFE ∧ t.readMem 0xFFFE = 1 := by decide
/-- `INT 7` with IA = 0: queued, not delivered. -/
theorem test_int_queued : (after (fresh [0xA100])).queue = [7] ∧ (after (fresh [0xA100])).pc = 1 := by decide
/-- `INT 7` with interrupts on: delivered in the same call. -/
theorem test_int_delivered :
    let t := after ((((fresh [0xA100]).setIa 0x200).setIen true).setReg .a 0x1111)
    t.reg .a = 7 ∧ t.pc = 0x200 ∧ t.sp = 0xFFFE ∧ t.readMem 0xFFFF = 1 ∧ t.readMem 0xFFFE = 0x1111 ∧ t.iaq = true ∧
      t.queue = [] ∧ t.sleepCycles = 3 := by decide
theorem test_iag : (after ((fresh [0x0520]).setIa 0x200)).reg .b = 0x200 := by decide
theorem test_ias :
    let t := after (fresh [0x7D40, 0x0200])
    t.ia = 0x200 ∧ t.ien = true ∧ t.pc = 2 ∧ t.sleepCycles = 1 := by decide
theorem test_ias_zero : (after (((fresh [0x8540]).setIa 0x200).setIen true)).ien = false := by decide
theorem test_rfi :
    let t := after (((((fresh [0x8560]).setSp 0xFFFE).writeMem 0xFFFE 0x1111).writeMem 0xFFFF 0x42).setIaq true)
    t.reg .a = 0x1111 ∧ t.pc = 0x42 ∧ t.sp = 0 ∧ t.iaq = false ∧ t.sleepCycles = 2 := by decide
theorem test_iaq : (after (fresh [0x8980])).iaq = true ∧ (after ((fresh [0x8580]).setIaq true)).iaq = false := by decide
theorem test_hwn : (after (withDevices [.clock Clock.fresh, .display Display.fresh] [0x1600])).reg .z = 2 := by decide
theorem test_hwq :
    let t := after (withDevices [.clock Clock.fresh, .floppy Floppy.fresh] [0x8A20])
    t.reg .a = 0x24C5 ∧ t.reg .b = 0x4FD5 ∧ t.reg .c = 0x000B ∧ t.reg .x = 0x7E91 ∧ t.reg .y = 0x1EB3 := by decide
theorem test_hwq_absent : (after ((fresh [0x9A20]).setReg .a 9)).reg .a = 0 := by decide
/-- `HWI 0` on a fresh floppy controller, A = 0: poll. -/
theorem test_hwi_poll :
    let t := after (((withDevices [.floppy Floppy.fresh] [0x8640]).setReg .b 0xBBBB).setReg .c 0xCCCC)
    t.reg .b = 0 ∧ t.reg .c = 0 ∧ t.sleepCycles = 3 := by decide
/-- `HWI 0` on a clock, A = 2, X = 0x42: the message. -/
theorem test_hwi_clock :
    (after (((withDevices [.clock Clock.fresh] [0x8640]).setReg .a 2).setReg .x 0x42)).devices =
      [.clock { Clock.fresh with msg := 0x42 }] := by decide
/-- Reserved: `7FDC 1111 2222` passes three words; status and cost as said. -/
theorem test_reserved_basic1c :
    let t := after (fresh [0x7FDC, 0x1111, 0x2222])
    t.pc = 3 ∧ t.sleepCycles = 2 ∧ t.status = .decodeError 0x7FDC 0 := by decide
/-- Reserved: `63B8` moves SP only. -/
theorem test_reserved_basic18 : (after (fresh [0x63B8])).sp = 1 ∧ (after (fresh [0x63B8])).pc = 1 := by decide
/-- Reserved: the word 0x0000, which fills memory after reset. -/
theorem test_reserved_special00 :
    (after State.reset).pc = 1 ∧ (after State.reset).sleepCycles = 0 ∧ (after State.reset).status = .decodeError 0 0 := by decide

/-! ### The machine around the instructions -/

/-- A sleeping call pays one cycle and decodes nothing. -/
theorem test_sleep : (after ((fresh [0x9801]).setSleep 2)).sleepCycles = 1 ∧ (after ((fresh [0x9801]).setSleep 2)).pc = 0 := by decide
/-- The clock of E2 at its tenth call. -/
theorem test_clock_tick :
    let t := after (withDevices [.clock { period := 10, cycles := 9, ticks := 0, msg := 0x42 }] [])
    t.queue = [0x42] ∧ t.devices = [.clock { period := 10, cycles := 0, ticks := 1, msg := 0x42 }] := by decide
/-- E7: the 257th message. -/
theorem test_257th : ((hostOp (.interrupt 0x100) (State.reset.setQueue fullQueue)).1).onFire = true := by decide +kernel
/-- A failed read at Y = 0xFE01 (E8) and the latch. -/
theorem test_floppy_reject :
    let t := after (((withDevices [.floppy loaded] [0x8640]).setReg .a 2).setReg .y 0xFE01)
    t.reg .b = 0 ∧ t.devices = [.floppy { loaded with error := .badSector }] := by decide
/-- E9: a write to protected media latches the protection, whatever X and Y are. -/
theorem test_floppy_protected :
    let f := { loaded with state := .readyWriteProtected }
    let t := after ((((withDevices [.floppy f] [0x8640]).setReg .a 3).setReg .x 0xFFFF).setReg .y 0xFFFF)
    t.reg .b = 0 ∧ t.devices = [.floppy { f with error := .writeProtected }] := by decide

/-! ### Witnesses: for every statement with hypotheses, states and operands that meet them, each clause at its boundary values -/

/-- A state in which a message can be delivered. -/
def deliverable : State := (((fresh [0x9801]).setQueue [5, 6]).setIa 0x300).setIen true

/-- A state in which the call catches fire: INT with 256 messages pending. -/
def catching : State := (fresh [0xA100]).setQueue fullQueue

/-- DecodeOfEncode. -/
theorem witness_decode_of_encode :
    (Instr.set (.com (.regOff .j 1)) (.short 0xFFFF)).wf = true ∧ (Instr.hwi (.short 30)).wf = true := by decide

/-- StepRunsDecodedInstruction: three words across the top of memory. -/
theorem witness_step_runs :
    let s := (((State.reset.writeMem 0xFFFE 0x7FC1).writeMem 0xFFFF 0x5555).writeMem 0 0x2000).setPc 0xFFFE
    let i := Instr.set (.com (.direct 0x2000)) (.com (.lit 0x5555))
    s.onFire = false ∧ s.sleepCycles = 0 ∧ i.wf = true ∧
      ∀ k, k < (encode i).length → s.readMem (s.pc + BitVec.ofNat 16 k) = (encode i).getD k 0 := by decide

/-- SleepingCallDecodesNothing: nothing to deliver; a message to deliver. -/
theorem witness_sleeping :
    ((fresh []).setSleep 1).onFire = false ∧ ((fresh []).setSleep 1).sleepCycles = 0 + 1 ∧ ((fresh []).setSleep 1).queue = [] ∧
    (deliverable.setSleep 3).onFire = false ∧ (deliverable.setSleep 3).sleepCycles = 2 + 1 ∧
    (deliverable.setSleep 3).queue = 5 :: [6] ∧ (deliverable.setSleep 3).ien = true ∧ (deliverable.setSleep 3).ia ≠ 0 ∧
    (deliverable.setSleep 3).iaq = false := by decide

/-- DestinationOperandForms: PUSH, PEEK and PICK beside POP at the top of memory, and `SET PUSH, SP` at its bottom (R151). -/
theorem witness_operand_forms :
    let s := (fresh []).setSp 0xFFFF
    ((DstOperand.push, Loc.mem 0xFFFF) ∈ destinationForms .pop .a 5 s ∧
      (DstOperand.com .peek, Loc.mem 0) ∈ destinationForms .pop .a 5 s ∧
      (DstOperand.com (.pick 5), Loc.mem 5) ∈ destinationForms .pop .a 5 s ∧
      (SrcOperand.pop, s.readMem 0xFFFF) ∈ sourceForms .push .a 5 s) ∧
    (DstOperand.push, Loc.mem 0xFFFF) ∈ destinationForms (.com .sp) .a 5 (fresh []) ∧
      (SrcOperand.com .sp, 0xFFFF) ∈ sourceForms .push .a 5 (fresh []) := by decide

/-- SleepingCallStepsEveryDevice, DeviceListNeverChanges: a clock beside a controller, each at its index. -/
theorem witness_sleeping_devices :
    let s := (withDevices [.clock { Clock.fresh with period := 1 }, .floppy loaded] []).setSleep 1
    s.onFire = false ∧ s.sleepCycles ≠ 0 ∧ step s = .next (after s) ∧ (after s).onFire = false ∧
      s.devices[1]? = some (.floppy loaded) := by
  refine ⟨by decide, by decide, rfl, by decide, by decide⟩

/-- DeviceSteppingInOrder: no fire; a clock's tick on a full queue; on fire already. -/
theorem witness_device_stepping :
    (cycleDevices (withDevices [.clock Clock.fresh] [])).onFire = false ∧
    ((withDevices [.clock { Clock.fresh with period := 1, msg := 9 }] []).setQueue fullQueue).onFire = false ∧
    (cycleDevices ((withDevices [.clock { Clock.fresh with period := 1, msg := 9 }] []).setQueue fullQueue)).onFire = true ∧
    (State.reset.setOnFire true).onFire = true := by decide +kernel

/-- StatusOfEveryCall: an ordinary call, a decode error, a fire. -/
theorem witness_status :
    step (fresh [0x9801]) = .next (after (fresh [0x9801])) ∧ step (fresh []) = .next (after (fresh [])) ∧
      step catching = .next (after catching) ∧ (after catching).status = .onFire := by
  refine ⟨rfl, rfl, rfl, by decide +kernel⟩

/-- OnFireCallsChangeNothing. -/
theorem witness_on_fire : (State.reset.setOnFire true).onFire = true := by decide

/-- CatchingFireEndsTheCall. -/
theorem witness_catching_fire :
    catching.onFire = false ∧ catching.sleepCycles = 0 ∧
      ∃ t, exec catching.fetchInstr (catching.setStatus .ok) = .next t ∧ t.onFire = true :=
  ⟨by decide, by decide, _, rfl, by decide +kernel⟩

/-- QueueIsFifoOverACall: a call that delivers. -/
theorem witness_fifo : step deliverable = .next (after deliverable) ∧ (after deliverable).queue = [6] := by
  refine ⟨rfl, by decide⟩

/-- DivDviResult and ModMdiResult: a divisor that is zero and the one next to it. -/
theorem witness_divisors :
    srcVal (.com (.reg .b)) (.short 0) State.reset = 0 ∧ srcVal (.com (.reg .b)) (.short 1) State.reset ≠ 0 := by decide

/-- ConditionalPasses: for each conditional, one that passes. -/
theorem witness_passes :
    ∀ o ∈ [(0x10 : BitVec 5), 0x11, 0x12, 0x13, 0x14, 0x15, 0x16, 0x17],
      ∃ s ∈ [(State.reset.setReg .a 1).setReg .b 1, (State.reset.setReg .a 2).setReg .b 1, (State.reset.setReg .a 1).setReg .b 2],
        ∃ p ∈ conditionals (.com (.reg .b)) (.com (.reg .a)) s, p.2.1 = o ∧ p.2.2 = true := by decide

/-- Three states in which some test fails; memory is empty, so the skip passes the word 0x0000 at 1. -/
def failing : List State :=
  [(State.reset.setReg .a 1).setReg .b 1, (State.reset.setReg .a 2).setReg .b 1, (State.reset.setReg .a 1).setReg .b 2]

theorem failing_skips : ∀ s ∈ failing, SkipsTo s.mem (resolved (.com (.reg .b)) (.com (.reg .a)) s).pc 2 1 := by
  intro s hs
  have h : s.mem = [] ∧ s.pc = 0 := by
    revert s
    decide
  have hp : (resolved (.com (.reg .b)) (.com (.reg .a)) s).pc = 1 := by
    show s.pc + 1 + BitVec.ofNat 16 0 + BitVec.ofNat 16 0 = 1
    rw [h.2]
    decide
  rw [h.1, hp]
  exact .last (by decide)

theorem failing_tests :
    ∀ o ∈ [(0x10 : BitVec 5), 0x11, 0x12, 0x13, 0x14, 0x15, 0x16, 0x17],
      ∃ s ∈ failing, ∃ p ∈ conditionals (.com (.reg .b)) (.com (.reg .a)) s, p.2.1 = o ∧ p.2.2 = false := by decide

/-- ConditionalFailsAndSkips: for each conditional, a state in which its test fails and the skip ends. -/
theorem witness_fails (o : BitVec 5) (ho : o ∈ [(0x10 : BitVec 5), 0x11, 0x12, 0x13, 0x14, 0x15, 0x16, 0x17]) :
    ∃ s ∈ failing, SkipsTo s.mem (resolved (.com (.reg .b)) (.com (.reg .a)) s).pc 2 1 ∧
      ∃ p ∈ conditionals (.com (.reg .b)) (.com (.reg .a)) s, p.2.1 = o ∧ p.2.2 = false := by
  obtain ⟨s, hs, h⟩ := failing_tests o ho
  exact ⟨s, hs, failing_skips s hs, h⟩

/-- ConditionalFailsAndSkips with no binder: IFB. -/
theorem witness_ifb_fails :
    SkipsTo State.reset.mem (resolved (.com (.reg .b)) (.com (.reg .a)) State.reset).pc 2 1 ∧
      (Instr.ifb (.com (.reg .b)) (.com (.reg .a)), (0x10 : BitVec 5), false) ∈
        conditionals (.com (.reg .b)) (.com (.reg .a)) State.reset :=
  ⟨.last (by decide), List.mem_cons_self⟩

/-- ConditionalFailsAndSkips: a chain of one conditional and a three-word SET, across the top of memory. -/
theorem witness_skips_to :
    SkipsTo (((State.reset.writeMem 0xFFFE 0x8C32).writeMem 0xFFFF 0x7FC1)).mem 0xFFFE 2 2 := by
  have h : SkipsTo (((State.reset.writeMem 0xFFFE 0x8C32).writeMem 0xFFFF 0x7FC1)).mem 0xFFFF 2 1 := .last (by decide)
  exact .more (by decide) h

/-- OnlyEndlessSkipsStop: its second clause, an instruction that does not fault. -/
theorem witness_no_fault : exec (.set (.com (.reg .b)) (.short 1)) State.reset ≠ .fault .skipNeverEnds := by
  intro h
  cases h

/-- Memory full of `IFB B, A`: every skip in it is endless. -/
def allConditional : Memory := (List.range' 0 65536).map fun n => (n, 0x0030)

theorem read_full (a len k : Nat) (h : a ≤ k ∧ k < a + len) :
    Cells.read ((List.range' a len).map fun n => (n, (0x0030 : Word))) k = 0x0030 := by
  induction len generalizing a with
  | zero => omega
  | succ len ih =>
    rw [List.range'_succ, List.map_cons]
    unfold Cells.read
    by_cases hk : k = a
    · rw [if_pos hk]
    · rw [if_neg hk]
      exact ih (a + 1) (by omega)

/-- OnlyEndlessSkipsStop: its first clause, a test that fails where no chain of conditionals ends. -/
theorem witness_endless_skip :
    (Instr.ifb (.com (.reg .b)) (.com (.reg .a)), (0x10 : BitVec 5), false) ∈
      conditionals (.com (.reg .b)) (.com (.reg .a)) (State.reset.setMem allConditional) ∧
    ∀ pc n, ¬SkipsTo allConditional (resolved (.com (.reg .b)) (.com (.reg .a)) (State.reset.setMem allConditional)).pc pc n := by
  refine ⟨List.mem_cons_self, ?_⟩
  have hr : ∀ pc : Word, allConditional.read pc = 0x0030 := fun pc => read_full 0 65536 pc.toNat ⟨by omega, by omega⟩
  have key : ∀ p pc n, ¬SkipsTo allConditional p pc n := by
    intro p pc n h
    induction h with
    | last h =>
      rw [hr] at h
      exact absurd h (by decide)
    | more _ _ ih => exact ih
  exact key _

/-- IntQueuesMessage and EnqueueRule: 255 and 256 messages pending; on fire. -/
theorem witness_queue_lengths :
    (State.reset.setQueue (fullQueue.drop 1)).onFire = false ∧ (State.reset.setQueue (fullQueue.drop 1)).queue.length < 256 ∧
    (State.reset.setQueue fullQueue).onFire = false ∧ 256 ≤ (State.reset.setQueue fullQueue).queue.length ∧
    (State.reset.setOnFire true).onFire = true := by decide +kernel

/-- HwqDeliversIdentity, HwiAbsentDeviceIsNoOp: the last index that has a device and the first that has none. -/
theorem witness_device_index :
    (withDevices [.clock Clock.fresh, .display Display.fresh, .floppy Floppy.fresh] []).devices[(argVal (.short 2)
      (withDevices [.clock Clock.fresh, .display Display.fresh, .floppy Floppy.fresh] [])).toNat]? = some (.floppy Floppy.fresh) ∧
    (withDevices [.clock Clock.fresh, .display Display.fresh] []).devices[(argVal (.short 2)
      (withDevices [.clock Clock.fresh, .display Display.fresh] [])).toNat]? = none := by decide

/-- HwiOnClock, HwiOnDisplay. -/
theorem witness_clock_and_display :
    (withDevices [.clock Clock.fresh, .display Display.fresh] []).devices[(argVal (.short 0)
      (withDevices [.clock Clock.fresh, .display Display.fresh] [])).toNat]? = some (.clock Clock.fresh) ∧
    (withDevices [.clock Clock.fresh, .display Display.fresh] []).devices[(argVal (.short 1)
      (withDevices [.clock Clock.fresh, .display Display.fresh] [])).toNat]? = some (.display Display.fresh) := by decide

/-- The machine with one floppy controller `f` and A, X, Y as given. -/
def floppyRequest (f : Floppy) (a x y : Word) : State :=
  (((withDevices [.floppy f] []).setReg .a a).setReg .x x).setReg .y y

/-- The hypotheses every statement about a floppy controller shares, and its sub-command. -/
def asksFloppy (f : Floppy) (s : State) (a : Word) : Bool :=
  decide (s.devices[(argVal (.short 0) s).toNat]? = some (.floppy f) ∧ s.reg .a = a)

/-- HwiFloppyPollAndConfigure: A = 0, 1 and 4. -/
theorem witness_floppy_poll :
    asksFloppy loaded (floppyRequest loaded 0 0 0) 0 ∧ asksFloppy loaded (floppyRequest loaded 1 0 0) 1 ∧
      asksFloppy loaded (floppyRequest loaded 4 0 0) 4 := by decide

/-- HwiFloppyRead: the last sector and the last address; one past either; no media. -/
theorem witness_floppy_read :
    (asksFloppy loaded (floppyRequest loaded 2 1439 0xFE00) 2 ∧ loaded.state = .ready ∧
      ((floppyRequest loaded 2 1439 0xFE00).reg .x).toNat < 1440 ∧
      ((floppyRequest loaded 2 1439 0xFE00).reg .y).toNat + 512 ≤ 65536) ∧
    (asksFloppy loaded (floppyRequest loaded 2 1440 0) 2 ∧ 1440 ≤ ((floppyRequest loaded 2 1440 0).reg .x).toNat) ∧
    (asksFloppy loaded (floppyRequest loaded 2 0 0xFE01) 2 ∧ 65536 < ((floppyRequest loaded 2 0 0xFE01).reg .y).toNat + 512) ∧
    (asksFloppy Floppy.fresh (floppyRequest Floppy.fresh 2 0 0) 2 ∧ Floppy.fresh.state = .noMedia) := by decide

/-- HwiFloppyWrite: the same boundaries; protected media. -/
theorem witness_floppy_write :
    (asksFloppy loaded (floppyRequest loaded 3 1439 0xFE00) 3 ∧ loaded.state = .ready ∧
      ((floppyRequest loaded 3 1439 0xFE00).reg .x).toNat < 1440 ∧
      ((floppyRequest loaded 3 1439 0xFE00).reg .y).toNat + 512 ≤ 65536) ∧
    (asksFloppy loaded (floppyRequest loaded 3 1440 0) 3 ∧ 1440 ≤ ((floppyRequest loaded 3 1440 0).reg .x).toNat) ∧
    (asksFloppy loaded (floppyRequest loaded 3 0 0xFE01) 3 ∧ 65536 < ((floppyRequest loaded 3 0 0xFE01).reg .y).toNat + 512) ∧
    (asksFloppy { loaded with state := .readyWriteProtected }
      (floppyRequest { loaded with state := .readyWriteProtected } 3 0 0) 3) := by decide

/-- HwiOnExternalDevice: whatever the device answers. -/
theorem witness_external :
    (withDevices [.external { manufacturer := 1, deviceId := 2, version := 3 } 4 6 [5]] []).devices[(argVal (.short 0)
      (withDevices [.external { manufacturer := 1, deviceId := 2, version := 3 } 4 6 [5]] [])).toNat]? =
      some (.external { manufacturer := 1, deviceId := 2, version := 3 } 4 6 [5]) ∧
    ∃ r, r = Config.externalInterrupt 4 6 [5]
      (afterSrc (.short 0) (withDevices [.external { manufacturer := 1, deviceId := 2, version := 3 } 4 6 [5]] [])).view :=
  ⟨by decide, _, rfl⟩

/-- ZeroMessageDeviceIsSilent: a clock that keeps message 0 when its period is set, a ticking clock and an empty controller without
messages. -/
theorem witness_silent :
    deviceMessage (deviceInterrupt (.clock Clock.fresh) State.reset.view).1 = 0 ∧
    deviceMessage (.clock { Clock.fresh with period := 1 }) = 0 ∧
    (withDevices [.floppy Floppy.fresh] []).devices[0]? = some (.floppy Floppy.fresh) ∧
    deviceMessage (.floppy Floppy.fresh) = 0 := by decide

/-- R285: a device whose message is zero raises nothing, whatever it has to return; one whose message is not zero raises it all. -/
theorem test_raised : raised 0 [1, 2] = [] ∧ raised 7 [1, 2] = [1, 2] := by decide

/-- DeliveryConditionAndAction, RfiUndoesDelivery. -/
theorem witness_delivery :
    deliverable.queue = 5 :: [6] ∧ deliverable.deliver ≠ deliverable ∧ SrcOperand.short 0 ≠ .pop := by decide

/-- FireIsPermanentAndNeedsFullQueue: a call on fire; a call that catches fire; a host message on a full queue. -/
theorem witness_fire :
    step (State.reset.setOnFire true) = .next (after (State.reset.setOnFire true)) ∧ step catching = .next (after catching) ∧
      catching.onFire = false ∧ (after catching).onFire = true ∧
      (State.reset.setQueue fullQueue).onFire = false ∧
      (hostOp (.interrupt 1) (State.reset.setQueue fullQueue)).1.onFire = true := by
  refine ⟨rfl, rfl, by decide, by decide +kernel, by decide, by decide +kernel⟩

/-- HostResetInterruptAttach, AttachedDeviceIsInItsInitialState: one place left in the device list; none. -/
theorem witness_attach :
    (State.reset.setDevices (List.replicate 65534 (.display Display.fresh))).devices.length < 65535 ∧
    65535 ≤ (State.reset.setDevices (List.replicate 65535 (.display Display.fresh))).devices.length := by
  constructor
  · show (List.replicate 65534 _).length < 65535
    rw [List.length_replicate]
    omega
  · show 65535 ≤ (List.replicate 65535 _).length
    rw [List.length_replicate]

/-- HostResetInterruptAttach: the last device there is; the first index that has none. -/
theorem witness_call_device :
    (withDevices [.clock Clock.fresh] []).devices[0]? = some (.clock Clock.fresh) ∧
    (withDevices [.clock Clock.fresh] []).devices.length ≤ 1 := by decide

/-- FlashCopiesOrRejects: exactly memory's size; one word more. -/
theorem witness_flash : (List.replicate 65536 (1 : Word)).length ≤ 65536 ∧ 65536 < (List.replicate 65537 (1 : Word)).length := by
  rw [List.length_replicate, List.length_replicate]
  omega

/-- InsertAndEject: an empty controller with an image whose last word is the last of the geometry, and with one a
word further; a loaded one. -/
theorem witness_insert_eject :
    (withDevices [.floppy Floppy.fresh] []).devices[0]? = some (.floppy Floppy.fresh) ∧ Floppy.fresh.state = .noMedia ∧
    Image.wf [(0, 1), (737279, 1)] ∧ ¬ Image.wf [(737280, 1)] ∧
    (withDevices [.floppy loaded] []).devices[0]? = some (.floppy loaded) ∧ loaded.state ≠ .noMedia := by
  refine ⟨by decide, by decide, by decide, by decide, by decide, by decide⟩

/-- StepKeepsInvariant, DeviceListNeverChanges: reset itself, and a loaded controller beside a running clock. -/
theorem witness_invariant :
    State.reset.Inv ∧ (withDevices [.floppy loaded, .clock { Clock.fresh with period := 1 }] [0x9801]).Inv ∧
      step State.reset = .next (after State.reset) := by
  refine ⟨⟨by decide, by decide, by decide, fun d hd => nomatch hd⟩, ⟨by decide, by decide, by decide, ?_⟩, rfl⟩
  intro d hd
  have : d = .floppy loaded ∨ d = .clock { Clock.fresh with period := 1 } := by
    simpa [withDevices, State.setDevices] using hd
  rcases this with rfl | rfl
  · exact ⟨by decide, fun m hm => by cases hm; decide, by decide, by decide, by decide, by decide⟩
  · exact .inl (by decide)

/-- HostOpsKeepInvariant: the machine after reset. -/
theorem witness_host_ops : State.reset.Inv := witness_invariant.1

/-- R129, R289, R331: attaching a clock to the machine after reset, R400. -/
theorem test_attach_clock :
    hostOp (.attach .clock) State.reset =
      (State.reset.setDevices [.clock { period := 0, cycles := 0, ticks := 0, msg := 0 }], .attached 0) := by decide

/-- ExOnlyByListedOpcodes: SET to a register writes no EX and its target is not EX. -/
theorem witness_ex :
    exec (.set (.com (.reg .b)) (.short 1)) State.reset = .next (((State.reset.setPc 1).setReg .b 1).setSleep 0) ∧
    writesEx (.set (.com (.reg .b)) (.short 1)) = false ∧
    targetOf State.reset (.set (.com (.reg .b)) (.short 1)) ≠ some .ex ∧
    (∀ a id kind msg priv, Instr.set (.com (.reg .b)) (.short 1) = .hwi a →
      State.reset.devices[(argVal a State.reset).toNat]? ≠ some (.external id kind msg priv)) := by
  refine ⟨rfl, rfl, by decide, ?_⟩
  intro a id kind msg priv h
  cases h

/-- InterruptStateOnlyByItsInstructions: RFI keeps `ien` and IA, IAS keeps `iaq`. -/
theorem witness_interrupt_state :
    (∃ t, exec (.rfi (.short 0)) State.reset = .next t) ∧ (∀ a, Instr.rfi (.short 0) ≠ .ias a) ∧
    (∀ a id kind msg priv, Instr.rfi (.short 0) = .hwi a →
      State.reset.devices[(argVal a State.reset).toNat]? ≠ some (.external id kind msg priv)) ∧
    (∃ t, exec (.ias (.short 1)) State.reset = .next t) ∧ (∀ a, Instr.ias (.short 1) ≠ .iaq a) ∧
    (∀ a, Instr.ias (.short 1) ≠ .rfi a) := by
  refine ⟨⟨_, rfl⟩, ?_, ?_, ⟨_, rfl⟩, ?_, ?_⟩
  · intro a h
    cases h
  · intro a id kind msg priv h
    cases h
  · intro a h
    cases h
  · intro a h
    cases h

end Sys2Proof.Tests
end

section
/-! SUPPORT. What one instruction can do to the state, said once: `ExecEffect` has one constructor per shape of effect, and
`exec_effect` reads it off `exec`. The frame and invariant proofs split along its constructors. -/

namespace Sys2Proof.Machine

section
variable (s : State) (d : Word) (id : Identity)

/-! stepIJ and deliverIdentity write general registers only (R192, R193, R259). -/

@[simp] theorem stepIJ_ex : (stepIJ d s).ex = s.ex := rfl
@[simp] theorem stepIJ_ia : (stepIJ d s).ia = s.ia := rfl
@[simp] theorem stepIJ_mem : (stepIJ d s).mem = s.mem := rfl
@[simp] theorem stepIJ_ien : (stepIJ d s).ien = s.ien := rfl
@[simp] theorem stepIJ_iaq : (stepIJ d s).iaq = s.iaq := rfl
@[simp] theorem stepIJ_queue : (stepIJ d s).queue = s.queue := rfl
@[simp] theorem stepIJ_onFire : (stepIJ d s).onFire = s.onFire := rfl
@[simp] theorem stepIJ_devices : (stepIJ d s).devices = s.devices := rfl

@[simp] theorem deliverIdentity_ex : (deliverIdentity id s).ex = s.ex := rfl
@[simp] theorem deliverIdentity_ia : (deliverIdentity id s).ia = s.ia := rfl
@[simp] theorem deliverIdentity_mem : (deliverIdentity id s).mem = s.mem := rfl
@[simp] theorem deliverIdentity_ien : (deliverIdentity id s).ien = s.ien := rfl
@[simp] theorem deliverIdentity_iaq : (deliverIdentity id s).iaq = s.iaq := rfl
@[simp] theorem deliverIdentity_queue : (deliverIdentity id s).queue = s.queue := rfl
@[simp] theorem deliverIdentity_onFire : (deliverIdentity id s).onFire = s.onFire := rfl
@[simp] theorem deliverIdentity_devices : (deliverIdentity id s).devices = s.devices := rfl

end

/-- `ExecEffect s i t`: instruction `i` may take `s` to `t`. Where instructions share an effect, the constructor says what sets
them apart for the frames: the target of the write, and whether EX is written beside it. -/
inductive ExecEffect (s : State) : Instr → State → Prop where
  /-- SET, arithmetic, logic and shifts: the result goes to operand b, then EX where the opcode writes it. -/
  | write {i : Instr} {b : DstOperand} {a : SrcOperand} (base : Nat) (res : Word) (e : Option Word)
      (target : targetOf s i = some (dstLoc b a s)) (keepsEx : writesEx i = false → e = none) :
      ExecEffect s i (writeResult base b a s res e)
  /-- STI and STD: a store, then I and J move by `d`. -/
  | storeStep {i : Instr} {b : DstOperand} {a : SrcOperand} (d : Word) (target : targetOf s i = some (dstLoc b a s)) :
      ExecEffect s i (stepIJ d (writeResult 2 b a s (srcVal b a s) none))
  /-- A conditional that ends: only PC moves, with or without a skip. -/
  | goTo {i : Instr} (b : DstOperand) (a : SrcOperand) (pc : Word) (n : Nat) :
      ExecEffect s i (((resolved b a s).setPc pc).setSleep n)
  /-- A reserved basic opcode: the operands are resolved and the status is set. -/
  | reservedBasic {i : Instr} (b : DstOperand) (a : SrcOperand) (st : Status) (n : Nat) :
      ExecEffect s i (((resolved b a s).setStatus st).setSleep n)
  /-- A reserved special opcode: the operand is resolved and the status is set. -/
  | reservedSpecial {i : Instr} (a : SrcOperand) (st : Status) (n : Nat) :
      ExecEffect s i (((afterSrc a s).setStatus st).setSleep n)
  /-- IAG and HWN: a value goes to operand a. -/
  | writeArg {i : Instr} {a : SrcOperand} (v : Word) (n : Nat) (target : targetOf s i = some (srcLoc a s)) :
      ExecEffect s i (((afterSrc a s).writeLoc (srcLoc a s) v).setSleep n)
  | jsr (a : SrcOperand) (n : Nat) :
      ExecEffect s (.jsr a) ((((afterSrc a s).push (afterSrc a s).pc).setPc (argVal a s)).setSleep n)
  | int (a : SrcOperand) (n : Nat) :
      ExecEffect s (.int a) (((afterSrc a s).enqueue (argVal a s)).setSleep n)
  | ias (a : SrcOperand) (n : Nat) :
      ExecEffect s (.ias a) ((((afterSrc a s).setIa (argVal a s)).setIen (argVal a s != 0)).setSleep n)
  | rfi (a : SrcOperand) (n : Nat) :
      ExecEffect s (.rfi a) ((afterSrc a s).returnFromInterrupt.setSleep n)
  | iaq (a : SrcOperand) (n : Nat) :
      ExecEffect s (.iaq a) (((afterSrc a s).setIaq (argVal a s != 0)).setSleep n)
  | hwq (a : SrcOperand) (id : Identity) (n : Nat) :
      ExecEffect s (.hwq a) ((deliverIdentity id (afterSrc a s)).setSleep n)
  | hwi (a : SrcOperand) (n : Nat) :
      ExecEffect s (.hwi a) ((callDevice (argVal a s).toNat (afterSrc a s)).setSleep n)

theorem conditional_effect {i : Instr} {test : Word → Word → Bool} {b : DstOperand} {a : SrcOperand} {s t : State}
    (h : conditional test b a s = .next t) : ExecEffect s i t := by
  rcases conditional_cases test b a s with ⟨-, e⟩ | ⟨-, pc, n, -, e⟩ | ⟨-, -, e⟩
  · cases e.symm.trans h
    exact .goTo b a (resolved b a s).pc _
  · cases e.symm.trans h
    exact .goTo b a pc _
  · cases e.symm.trans h

theorem reservedBasic_effect {i : Instr} {o : BitVec 5} {b : DstOperand} {a : SrcOperand} {s t : State}
    (h : reservedBasic o b a s = .next t) : ExecEffect s i t := by
  cases h
  exact .reservedBasic b a _ _

theorem reservedSpecial_effect {i : Instr} {so : BitVec 5} {a : SrcOperand} {s t : State}
    (h : Sys2Proof.Machine.reservedSpecial so a s = .next t) : ExecEffect s i t := by
  cases h
  exact .reservedSpecial a _ _

/-- The effect of every instruction that has a next state. -/
theorem exec_effect {i : Instr} {s t : State} (h : exec i s = .next t) : ExecEffect s i t := by
  cases i with
  | set b a | mod b a | mdi b a | and b a | bor b a | xor b a =>
    cases h
    exact .write _ _ _ rfl fun _ => rfl
  | add b a | sub b a | mul b a | mli b a | div b a | dvi b a | shr b a | asr b a | shl b a | adx b a | sbx b a =>
    cases h
    exact .write _ _ _ rfl fun hw => by cases hw
  | sti b a | std b a =>
    cases h
    exact .storeStep _ rfl
  | ifb b a | ifc b a | ife b a | ifn b a | ifg b a | ifa b a | ifl b a | ifu b a => exact conditional_effect h
  | reservedBasic18 b a | reservedBasic19 b a | reservedBasic1c b a | reservedBasic1d b a => exact reservedBasic_effect h
  | jsr a => cases h; exact .jsr a _
  | int a => cases h; exact .int a _
  | iag a | hwn a => cases h; exact .writeArg _ _ rfl
  | ias a => cases h; exact .ias a _
  | rfi a => cases h; exact .rfi a _
  | iaq a => cases h; exact .iaq a _
  | hwq a => cases h; exact .hwq a _ _
  | hwi a => cases h; exact .hwi a _
  | reservedSpecial00 a | reservedSpecial02 a | reservedSpecial03 a | reservedSpecial04 a | reservedSpecial05 a
  | reservedSpecial06 a | reservedSpecial07 a | reservedSpecial0d a | reservedSpecial0e a | reservedSpecial0f a
  | reservedSpecial13 a | reservedSpecial14 a | reservedSpecial15 a | reservedSpecial16 a | reservedSpecial17 a
  | reservedSpecial18 a | reservedSpecial19 a | reservedSpecial1a a | reservedSpecial1b a | reservedSpecial1c a
  | reservedSpecial1d a | reservedSpecial1e a | reservedSpecial1f a => exact reservedSpecial_effect h

end Sys2Proof.Machine
end

section
/-! SUPPORT. What a device's `interrupt` and `cycle()` keep: the device's kind and identity, its own invariant, memory's canonical form,
and, for the reference devices, EX and IA. -/

namespace Sys2Proof.Machine

/-! ### The floppy controller -/

/-- Everything a read request can do (R308). -/
theorem floppyRead_cases (f : Floppy) (v : View) :
    (∃ er, er ≠ .eject ∧ er ≠ .broken ∧ floppyRead f v = floppyReject f v er) ∨
    (floppyInBounds v.regs.x v.regs.y = true ∧ floppyRead f v = (floppySeek f v.regs.x,
      { v.setB 1 with mem := sectorToMem (f.image.getD []) v.regs.x v.mem v.regs.y }, [])) := by
  unfold floppyRead
  split
  · refine .inl ⟨notReadyError f, ?_, ?_, rfl⟩ <;> (unfold notReadyError; split <;> decide)
  · split
    · exact .inl ⟨.badSector, by decide, by decide, rfl⟩
    · rename_i hb
      exact .inr ⟨by simpa using hb, rfl⟩

/-- Everything a write request can do (R310). -/
theorem floppyWrite_cases (f : Floppy) (v : View) :
    (∃ er, er ≠ .eject ∧ er ≠ .broken ∧ floppyWrite f v = floppyReject f v er) ∨
    (f.state = .ready ∧ floppyInBounds v.regs.x v.regs.y = true ∧ floppyWrite f v =
      ({ floppySeek f v.regs.x with image := some (memToSector v.mem v.regs.y (f.image.getD []) v.regs.x) },
        v.setB 1, [])) := by
  unfold floppyWrite
  split
  · exact .inl ⟨.writeProtected, by decide, by decide, rfl⟩
  · split
    · refine .inl ⟨notReadyError f, ?_, ?_, rfl⟩ <;> (unfold notReadyError; split <;> decide)
    · rename_i hr
      split
      · exact .inl ⟨.badSector, by decide, by decide, rfl⟩
      · rename_i hb
        exact .inr ⟨by simpa using hr, by simpa using hb, rfl⟩

/-- Everything a call of the floppy controller can do (R306 to R311). -/
theorem floppyInterrupt_cases (f : Floppy) (v : View) :
    floppyInterrupt f v =
      ({ f with error := .none }, (v.setB (floppyStateCode f.state)).setC (floppyErrorCode f.error), []) ∨
    floppyInterrupt f v = ({ f with msg := v.regs.x }, v, []) ∨
    floppyInterrupt f v = floppyRead f v ∨
    floppyInterrupt f v = floppyWrite f v ∨
    floppyInterrupt f v = (f, v, []) := by
  unfold floppyInterrupt
  split
  · exact .inl rfl
  · exact .inr (.inl rfl)
  · exact .inr (.inr (.inl rfl))
  · exact .inr (.inr (.inr (.inl rfl)))
  · exact .inr (.inr (.inr (.inr rfl)))

/-- The two bounds a request in bounds meets (R309). -/
theorem floppyInBounds_iff (x y : Word) :
    floppyInBounds x y = true ↔ x.toNat < params.fdSectorCount ∧ y.toNat + params.fdSectorSize ≤ addressSpace := by
  simp [floppyInBounds]

/-- Latching an error a request can have keeps the controller in order (R302, R305). -/
theorem FloppyOk.latch {f : Floppy} (h : FloppyOk f) {er : FloppyError} (he : er ≠ .eject) (hb : er ≠ .broken) :
    FloppyOk { f with error := er } := by
  obtain ⟨himg, hwf, htrack, hbusy, -, -⟩ := h
  exact ⟨himg, hwf, htrack, hbusy, he, hb⟩

theorem FloppyOk.reject {f : Floppy} (h : FloppyOk f) (v : View) {er : FloppyError} (he : er ≠ .eject) (hb : er ≠ .broken) :
    FloppyOk (floppyReject f v er).1 :=
  h.latch he hb

/-- Seeking to a sector of the disk reaches one of its tracks (R303, R312). -/
theorem FloppyOk.seek {f : Floppy} (h : FloppyOk f) {x : Word} (hx : x.toNat < params.fdSectorCount) :
    FloppyOk (floppySeek f x) := by
  obtain ⟨himg, hwf, -, hbusy, he, hb⟩ := h
  exact ⟨himg, hwf, Nat.div_le_div_right hx.le, hbusy, he, hb⟩

/-- A sector of the disk lies within the image (R303, R310). -/
theorem memToSector_wf {img : Image} (h : Image.wf img) (m : Memory) (y : Word) {x : Word}
    (hx : x.toNat < params.fdSectorCount) : Image.wf (memToSector m y img x) := by
  refine Cells.wf_writeBlock _ h ?_
  calc x.toNat * params.fdSectorSize + (Cells.readBlock m y.toNat params.fdSectorSize).length
      = (x.toNat + 1) * params.fdSectorSize := by rw [Cells.length_readBlock, Nat.succ_mul]
    _ ≤ imageSize := Nat.mul_le_mul_right _ hx

/-- A sector copied in bounds stays within memory (R308, R309). -/
theorem sectorToMem_wf (img : Image) (x : Word) {m : Memory} (h : Memory.wf m) {y : Word}
    (hy : y.toNat + params.fdSectorSize ≤ addressSpace) : Memory.wf (sectorToMem img x m y) :=
  Cells.wf_writeBlock _ h (by rwa [Cells.length_readBlock])

/-- The image of a controller in order, or the blank disk where there is none, is within the geometry. -/
theorem FloppyOk.image_wf {f : Floppy} (h : FloppyOk f) : Image.wf (f.image.getD []) := by
  obtain ⟨-, hwf, -⟩ := h
  cases hi : f.image with
  | none => exact Cells.wf_nil _
  | some m => exact hwf m hi

theorem FloppyOk.read {f : Floppy} (h : FloppyOk f) (v : View) : FloppyOk (floppyRead f v).1 := by
  rcases floppyRead_cases f v with ⟨er, he, hb, e⟩ | ⟨hin, e⟩ <;> rw [e]
  · exact h.reject v he hb
  · obtain ⟨hx, -⟩ := (floppyInBounds_iff _ _).1 hin
    exact h.seek hx

theorem FloppyOk.write {f : Floppy} (h : FloppyOk f) (v : View) : FloppyOk (floppyWrite f v).1 := by
  rcases floppyWrite_cases f v with ⟨er, he, hb, e⟩ | ⟨hready, hin, e⟩ <;> rw [e]
  · exact h.reject v he hb
  · obtain ⟨hx, -⟩ := (floppyInBounds_iff _ _).1 hin
    obtain ⟨-, -, htrack, hbusy, herr⟩ := h.seek hx
    have hstate : (floppySeek f v.regs.x).state = .ready := hready
    refine ⟨by simp [hstate], fun m hm => ?_, htrack, hbusy, herr⟩
    exact Option.some.inj hm ▸ memToSector_wf h.image_wf v.mem v.regs.y hx

theorem FloppyOk.interrupt {f : Floppy} (h : FloppyOk f) (v : View) : FloppyOk (floppyInterrupt f v).1 := by
  rcases floppyInterrupt_cases f v with e | e | e | e | e <;> rw [e]
  · exact h.latch (by decide) (by decide)
  · exact h
  · exact h.read v
  · exact h.write v
  · exact h

theorem floppyInterrupt_mem_wf (f : Floppy) {v : View} (h : Memory.wf v.mem) : Memory.wf (floppyInterrupt f v).2.1.mem := by
  rcases floppyInterrupt_cases f v with e | e | e | e | e <;> rw [e]
  · exact h
  · exact h
  · rcases floppyRead_cases f v with ⟨er, -, -, e⟩ | ⟨hin, e⟩ <;> rw [e]
    · exact h
    · obtain ⟨-, hy⟩ := (floppyInBounds_iff _ _).1 hin
      dsimp only
      exact sectorToMem_wf _ _ h hy
  · rcases floppyWrite_cases f v with ⟨er, -, -, e⟩ | ⟨-, -, e⟩ <;> rw [e] <;> exact h
  · exact h

/-- The floppy controller writes neither EX nor IA (R306 to R311). -/
theorem floppyInterrupt_ex_ia (f : Floppy) (v : View) :
    (floppyInterrupt f v).2.1.ex = v.ex ∧ (floppyInterrupt f v).2.1.ia = v.ia := by
  rcases floppyInterrupt_cases f v with e | e | e | e | e <;> rw [e]
  · exact ⟨rfl, rfl⟩
  · exact ⟨rfl, rfl⟩
  · rcases floppyRead_cases f v with ⟨er, -, -, e⟩ | ⟨-, e⟩ <;> rw [e] <;> exact ⟨rfl, rfl⟩
  · rcases floppyWrite_cases f v with ⟨er, -, -, e⟩ | ⟨-, -, e⟩ <;> rw [e] <;> exact ⟨rfl, rfl⟩
  · exact ⟨rfl, rfl⟩

/-! ### The clock and the display -/

/-- Setting the period starts below the tick or switches the clock off (R334); no other sub-command touches the counter. -/
theorem ClockOk.interrupt {c : Clock} (h : ClockOk c) (v : View) : ClockOk (clockInterrupt c v).1 := by
  unfold clockInterrupt
  split
  · by_cases hx : v.regs.x = 0
    · exact .inr ⟨hx, rfl, rfl⟩
    · exact .inl (by simpa [params, Nat.pos_iff_ne_zero, ← BitVec.toNat_inj] using hx)
  · rcases h with hlt | ⟨hp, hc, -⟩
    · exact .inl hlt
    · exact .inr ⟨hp, hc, rfl⟩
  · exact h
  · exact h

/-- A running clock counts up to its tick and starts again; a clock that is off stays (R332, R337). -/
theorem ClockOk.cycle {c : Clock} (h : ClockOk c) : ClockOk (clockCycle c).1 := by
  unfold clockCycle
  split
  · exact h
  · rename_i hp
    split
    · exact .inl ‹_›
    · exact .inl (by simpa [params, Nat.pos_iff_ne_zero, ← BitVec.toNat_inj] using hp)

/-- The clock's call leaves all of the view but the registers (R333 to R336). -/
theorem clockInterrupt_view (c : Clock) (v : View) :
    (clockInterrupt c v).2.1.ex = v.ex ∧ (clockInterrupt c v).2.1.ia = v.ia ∧ (clockInterrupt c v).2.1.mem = v.mem := by
  unfold clockInterrupt
  split <;> exact ⟨rfl, rfl, rfl⟩

theorem DisplayOk.interrupt {d : Display} (h : DisplayOk d) (v : View) : DisplayOk (displayInterrupt d v).1 := by
  obtain ⟨hs, he⟩ := h
  unfold displayInterrupt
  split
  · exact ⟨hs, rfl⟩
  · exact ⟨hs, he⟩

/-- The display's call leaves all of the view but the registers (R352, R353). -/
theorem displayInterrupt_view (d : Display) (v : View) :
    (displayInterrupt d v).2.1.ex = v.ex ∧ (displayInterrupt d v).2.1.ia = v.ia ∧ (displayInterrupt d v).2.1.mem = v.mem := by
  unfold displayInterrupt
  split <;> exact ⟨rfl, rfl, rfl⟩

/-! ### Any device -/

theorem deviceInterrupt_ok {d : Device} (h : DeviceOk d) (v : View) : DeviceOk (deviceInterrupt d v).1 := by
  cases d with
  | floppy f => exact FloppyOk.interrupt h v
  | clock c => exact ClockOk.interrupt h v
  | display p => exact DisplayOk.interrupt h v
  | external id kind msg priv => trivial

theorem deviceCycle_ok {d : Device} (h : DeviceOk d) : DeviceOk (deviceCycle d).1 := by
  cases d with
  | floppy f => exact h
  | clock c => exact ClockOk.cycle h
  | display p => exact h
  | external id kind msg priv => trivial

theorem View.apply_mem_wf {v : View} (h : Memory.wf v.mem) (w : ViewWrite) : Memory.wf (v.apply w).mem := by
  cases w with
  | mem a x => exact Memory.wf_write h a x
  | reg r x => exact h
  | pc x => exact h
  | sp x => exact h
  | ex x => exact h
  | ia x => exact h

theorem View.foldl_apply_mem_wf (ws : List ViewWrite) {v : View} (h : Memory.wf v.mem) :
    Memory.wf (ws.foldl View.apply v).mem := by
  induction ws generalizing v with
  | nil => exact h
  | cons w ws ih => exact ih (View.apply_mem_wf h w)

/-- Whatever a device does to memory through its view, memory stays canonical (R283, R308). -/
theorem deviceInterrupt_mem_wf (d : Device) {v : View} (h : Memory.wf v.mem) : Memory.wf (deviceInterrupt d v).2.1.mem := by
  cases d with
  | floppy f => exact floppyInterrupt_mem_wf f h
  | clock c =>
    obtain ⟨-, -, hm⟩ := clockInterrupt_view c v
    exact hm.symm ▸ h
  | display p =>
    obtain ⟨-, -, hm⟩ := displayInterrupt_view p v
    exact hm.symm ▸ h
  | external id kind msg priv => exact View.foldl_apply_mem_wf _ h

/-- No reference device writes EX or IA. -/
theorem deviceInterrupt_ex_ia {d : Device} (h : ∀ id kind msg priv, d ≠ .external id kind msg priv) (v : View) :
    (deviceInterrupt d v).2.1.ex = v.ex ∧ (deviceInterrupt d v).2.1.ia = v.ia := by
  cases d with
  | floppy f => exact floppyInterrupt_ex_ia f v
  | clock c =>
    obtain ⟨hex, hia, -⟩ := clockInterrupt_view c v
    exact ⟨hex, hia⟩
  | display p =>
    obtain ⟨hex, hia, -⟩ := displayInterrupt_view p v
    exact ⟨hex, hia⟩
  | external id kind msg priv => exact absurd rfl (h id kind msg priv)

/-- The two are one device at two times: the kind and the identity agree (R281). -/
def SameDevice (d d' : Device) : Prop := SameKind d d' ∧ deviceIdentity d' = deviceIdentity d

/-- Which of the reference devices, or which variant, a device is: what `SameKind` compares. -/
def deviceTag : Device → Fin 4 × Nat
  | .floppy _ => (0, 0)
  | .clock _ => (1, 0)
  | .display _ => (2, 0)
  | .external _ kind _ _ => (3, kind)

theorem sameKind_iff (d e : Device) : SameKind d e ↔ deviceTag d = deviceTag e := by
  cases d <;> cases e <;> simp [SameKind, deviceTag]

theorem SameDevice.refl (d : Device) : SameDevice d d := ⟨(sameKind_iff d d).2 rfl, rfl⟩

theorem SameDevice.trans {d e f : Device} (h : SameDevice d e) (g : SameDevice e f) : SameDevice d f := by
  obtain ⟨hk, hid⟩ := h
  obtain ⟨gk, gid⟩ := g
  rw [sameKind_iff] at hk gk
  exact ⟨(sameKind_iff d f).2 (hk.trans gk), gid.trans hid⟩

theorem sameDevice_deviceInterrupt (d : Device) (v : View) : SameDevice d (deviceInterrupt d v).1 := by
  cases d <;> exact ⟨(sameKind_iff _ _).2 rfl, rfl⟩

theorem sameDevice_deviceCycle (d : Device) : SameDevice d (deviceCycle d).1 := by
  cases d <;> exact ⟨(sameKind_iff _ _).2 rfl, rfl⟩

end Sys2Proof.Machine
end

section
/-! SUPPORT. What is kept over a whole call. A property of the queue, the fatal bit and the devices (`BusInvariant`) is checked once
against enqueueing and against a device's move; instructions, sub-step 5 and the call then keep it. -/

namespace Sys2Proof.Machine

/-- The queue, the fatal bit and the devices are as before. -/
structure SameBus (s t : State) : Prop where
  queue : t.queue = s.queue
  onFire : t.onFire = s.onFire
  devices : t.devices = s.devices

/-- `P` speaks of the queue, the fatal bit and the devices only, and an enqueue and a device's move keep it. -/
structure BusInvariant (P : State → Prop) : Prop where
  sameBus : ∀ {s t : State}, P s → SameBus s t → P t
  enqueue : ∀ (s : State) (m : Word), P s → P (s.enqueue m)
  interrupt : ∀ (s : State) (n : Nat) (d : Device) (v : View), s.devices[n]? = some d → P s →
    P (s.setDevices (s.devices.set n (deviceInterrupt d v).1))
  cycle : ∀ (s : State) (n : Nat) (d : Device), s.devices[n]? = some d → P s →
    P (s.setDevices (s.devices.set n (deviceCycle d).1))

section
variable {P : State → Prop} (hP : BusInvariant P)
include hP

theorem BusInvariant.enqueueAll (ms : List Word) {s : State} (h : P s) : P (s.enqueueAll ms) :=
  State.enqueueAll_induct hP.enqueue ms s h

theorem BusInvariant.callDevice (n : Nat) {s : State} (h : P s) : P (callDevice n s) := by
  rcases callDevice_cases n s with ⟨-, e⟩ | ⟨d, hd, e⟩
  · exact e.symm ▸ h
  · rw [e]
    exact hP.enqueueAll _ (hP.sameBus (hP.interrupt s n d s.view hd h) ⟨rfl, rfl, rfl⟩)

theorem BusInvariant.cycleDevices {s : State} (h : P s) : P (cycleDevices s) := by
  refine cycleDevices_induct (fun t n ht => ?_) h
  rcases cycleDevice_cases t n with e | ⟨d, -, hd, e⟩
  · exact e.symm ▸ ht
  · rw [e]
    exact hP.enqueueAll _ (hP.cycle t n d hd ht)

/-- Among instructions only INT and HWI touch the queue, the fatal bit and the devices. -/
theorem BusInvariant.exec {i : Instr} {s t : State} (h : exec i s = .next t) (hs : P s) : P t := by
  cases exec_effect h with
  | int a n =>
    have harg : P (afterSrc a s) := hP.sameBus hs ⟨by simp, by simp, by simp⟩
    exact hP.sameBus (hP.enqueue (afterSrc a s) (argVal a s) harg) ⟨rfl, rfl, rfl⟩
  | hwi a n =>
    have harg : P (afterSrc a s) := hP.sameBus hs ⟨by simp, by simp, by simp⟩
    exact hP.sameBus (hP.callDevice (argVal a s).toNat harg) ⟨rfl, rfl, rfl⟩
  | write | storeStep | goTo | reservedBasic | reservedSpecial | writeArg | jsr | ias | rfi | iaq | hwq =>
    exact hP.sameBus hs ⟨by simp, by simp, by simp⟩

/-- Delivery keeps what taking the head off the queue keeps (R125, R365). -/
theorem BusInvariant.deliver
    (hdequeue : ∀ s m rest, s.onFire = false → s.queue = m :: rest → P s → P (s.setQueue rest)) {s : State} (h : P s) :
    P s.deliver := by
  rcases s.deliver_cases with e | ⟨m, rest, hq, hf, -, -, -, e⟩
  · exact e.symm ▸ h
  · rw [e]
    exact hP.sameBus (hdequeue s m rest hf hq h) ⟨rfl, rfl, rfl⟩

theorem BusInvariant.finishCycle
    (hdequeue : ∀ s m rest, s.onFire = false → s.queue = m :: rest → P s → P (s.setQueue rest)) {s : State} (h : P s) :
    P (finishCycle s) := by
  have hc : P (Machine.cycleDevices s.deliver) := hP.cycleDevices (hP.deliver hdequeue h)
  unfold Machine.finishCycle settleStatus
  split
  · exact hP.sameBus hc ⟨rfl, rfl, rfl⟩
  · exact hc

/-- A whole call keeps what its parts keep (R120 to R127). -/
theorem BusInvariant.step
    (hdequeue : ∀ s m rest, s.onFire = false → s.queue = m :: rest → P s → P (s.setQueue rest)) {s t : State}
    (h : step s = .next t) (hs : P s) : P t := by
  have hst (st : Status) : P (s.setStatus st) := hP.sameBus hs ⟨rfl, rfl, rfl⟩
  rcases cycle_cases s with ⟨-, e⟩ | ⟨-, -, e⟩ | ⟨-, -, e⟩
  · cases e.symm.trans h
    exact hst .onFire
  · cases e.symm.trans h
    exact hP.finishCycle hdequeue (hP.sameBus (hst .ok) ⟨rfl, rfl, rfl⟩)
  · obtain ⟨t', hexec, rfl⟩ := executeCycle_next (e.symm.trans h)
    exact hP.finishCycle hdequeue (hP.exec hexec (hst .ok))

end

/-! ### Memory stays in canonical form -/

theorem callDevice_mem_wf (n : Nat) {s : State} (h : Memory.wf s.mem) : Memory.wf (callDevice n s).mem := by
  rcases callDevice_cases n s with ⟨-, e⟩ | ⟨d, -, e⟩
  · exact e.symm ▸ h
  · rw [e, State.enqueueAll_mem]
    exact deviceInterrupt_mem_wf d h

theorem exec_mem_wf {i : Instr} {s t : State} (h : exec i s = .next t) (hs : Memory.wf s.mem) : Memory.wf t.mem := by
  have harg (a : SrcOperand) : Memory.wf (afterSrc a s).mem := (afterSrc_mem a s).symm ▸ hs
  cases exec_effect h with
  | write base res e => exact writeResult_mem_wf _ _ _ _ _ _ hs
  | storeStep d => exact writeResult_mem_wf 2 _ _ _ _ none hs
  | writeArg v n => exact State.writeLoc_mem_wf (harg _) _ v
  | jsr a n => exact Memory.wf_write (harg a) _ _
  | hwi a n => exact callDevice_mem_wf _ (harg a)
  | goTo | reservedBasic | reservedSpecial | int | ias | rfi | iaq | hwq => simpa using hs

theorem finishCycle_mem_wf {s : State} (h : Memory.wf s.mem) : Memory.wf (finishCycle s).mem :=
  finishCycle_induct (P := fun s => Memory.wf s.mem) (fun s m rest h _ => State.takeInterrupt_mem_wf s m rest h)
    (fun s n h => (cycleDevice_mem s n).symm ▸ h) (fun _ _ h => h) h

/-- Every call keeps memory in canonical form (R38). -/
theorem step_mem_wf {s t : State} (h : step s = .next t) (hs : Memory.wf s.mem) : Memory.wf t.mem := by
  rcases cycle_cases s with ⟨-, e⟩ | ⟨-, -, e⟩ | ⟨-, -, e⟩
  · cases e.symm.trans h
    exact hs
  · cases e.symm.trans h
    exact finishCycle_mem_wf (s := (s.setStatus .ok).setSleep _) hs
  · obtain ⟨t', hexec, rfl⟩ := executeCycle_next (e.symm.trans h)
    exact finishCycle_mem_wf (exec_mem_wf hexec hs)

/-! ### The machine's invariant -/

/-- The part of the invariant that is not about memory. -/
structure BusOk (s : State) : Prop where
  queue : s.queue.length ≤ params.queueCap
  count : s.devices.length ≤ params.maxDevices
  devices : ∀ d ∈ s.devices, DeviceOk d

theorem State.Inv.busOk {s : State} (h : s.Inv) : BusOk s := ⟨h.queue, h.count, h.devices⟩

/-- Putting a device in order in the place of one that is attached keeps the devices in order. -/
theorem BusOk.set {s : State} (h : BusOk s) (n : Nat) {d : Device} (hd : DeviceOk d) :
    BusOk (s.setDevices (s.devices.set n d)) := by
  refine ⟨h.queue, by simpa using h.count, fun e he => ?_⟩
  rcases List.mem_or_eq_of_mem_set he with he | rfl
  · exact h.devices e he
  · exact hd

theorem BusOk.enqueue {s : State} (h : BusOk s) (m : Word) : BusOk (s.enqueue m) := by
  rcases s.enqueue_cases m with ⟨-, e⟩ | ⟨-, -, e⟩ | ⟨-, hlt, e⟩ <;> rw [e]
  · exact h
  · exact ⟨h.queue, h.count, h.devices⟩
  · exact ⟨by simpa using hlt, h.count, h.devices⟩

theorem busOk_busInvariant : BusInvariant BusOk where
  sameBus h e := ⟨e.queue.symm ▸ h.queue, e.devices.symm ▸ h.count, e.devices.symm ▸ h.devices⟩
  enqueue _ m h := h.enqueue m
  interrupt _ n d v hd h := h.set n (deviceInterrupt_ok (h.devices d (List.mem_of_getElem? hd)) v)
  cycle _ n d hd h := h.set n (deviceCycle_ok (h.devices d (List.mem_of_getElem? hd)))

theorem BusOk.dequeue {s : State} (h : BusOk s) {m : Word} {rest : List Word} (hq : s.queue = m :: rest) :
    BusOk (s.setQueue rest) := by
  have hlen := h.queue
  rw [hq, List.length_cons] at hlen
  exact ⟨Nat.le_of_succ_le hlen, h.count, h.devices⟩

end Sys2Proof.Machine
end

section
/-! SUPPORT. The fatal bit, the devices and the queue over a whole call. -/

namespace Sys2Proof.Machine

/-! ### The fatal bit -/

/-- From `s` to `t` the fatal bit is not cleared, and it is set only with a full queue pending (R33, R368, R369). -/
def FireStep (s t : State) : Prop :=
  (s.onFire = true → t.onFire = true) ∧ (t.onFire = true → s.onFire = true ∨ params.queueCap ≤ t.queue.length)

theorem FireStep.of_onFire_eq {s t : State} (h : t.onFire = s.onFire) : FireStep s t :=
  ⟨fun hs => h.trans hs, fun ht => .inl (h.symm.trans ht)⟩

theorem FireStep.of_not_onFire {s t : State} (hkeep : s.onFire = true → t.onFire = true) (ht : t.onFire = false) :
    FireStep s t :=
  ⟨hkeep, fun hf => by simp [ht] at hf⟩

/-- A state that agrees on the queue and the fatal bit may stand for the second one. -/
theorem FireStep.congr {s t u : State} (h : FireStep s t) (hq : u.queue = t.queue) (hf : u.onFire = t.onFire) :
    FireStep s u := by
  unfold FireStep
  rwa [hq, hf]

theorem FireStep.enqueue {s t : State} (h : FireStep s t) (m : Word) : FireStep s (t.enqueue m) := by
  obtain ⟨hkeep, hset⟩ := h
  rcases t.enqueue_cases m with ⟨-, e⟩ | ⟨-, hfull, e⟩ | ⟨hf, -, e⟩ <;> rw [e]
  · exact ⟨hkeep, hset⟩
  · exact ⟨fun _ => rfl, fun _ => .inr hfull⟩
  · exact .of_not_onFire hkeep hf

theorem fireStep_busInvariant (s : State) : BusInvariant (FireStep s) where
  sameBus h e := h.congr e.queue e.onFire
  enqueue _ m h := h.enqueue m
  interrupt _ _ _ _ _ h := h.congr rfl rfl
  cycle _ _ _ _ h := h.congr rfl rfl

/-- On a CPU that is not on fire the bit stays down when a message leaves the queue. -/
theorem FireStep.dequeue {s t : State} (h : FireStep s t) (hf : t.onFire = false) (rest : List Word) :
    FireStep s (t.setQueue rest) := by
  obtain ⟨hkeep, -⟩ := h
  exact .of_not_onFire hkeep hf

theorem step_fireStep {s t : State} (h : step s = .next t) : FireStep s t :=
  (fireStep_busInvariant s).step (fun _ _ rest hf _ h => h.dequeue hf rest) h (.of_onFire_eq rfl)

@[simp] theorem setRegs_onFire (args : List (Reg × Word)) (s : State) : (setRegs s args).onFire = s.onFire := by
  induction args generalizing s with
  | nil => rfl
  | cons p args ih => exact ih (s.setReg p.1 p.2)

/-- Everything `flash` can do (R130). -/
theorem hostFlash_cases (ws : List Word) (s : State) :
    (ws.length ≤ addressSpace ∧ hostFlash ws s = (s.setMem (Cells.writeBlock s.mem 0 ws), .done)) ∨
    (addressSpace < ws.length ∧ hostFlash ws s = (s, .refused)) := by
  unfold hostFlash
  split
  · exact .inl ⟨‹_›, rfl⟩
  · exact .inr ⟨Nat.lt_of_not_le ‹_›, rfl⟩

/-- Everything `insert` can do (R304). -/
theorem hostInsert_cases (n : Nat) (img : Image) (wp : Bool) (s : State) :
    hostInsert n img wp s = (s, .refused) ∨
    ∃ f f' msgs, floppyAt n s = some f ∧ floppyInsert f img wp = some (f', msgs) ∧
      hostInsert n img wp s = ((s.setDevices (s.devices.set n (.floppy f'))).enqueueAll msgs, .done) := by
  unfold hostInsert
  cases hf : floppyAt n s with
  | none => exact .inl rfl
  | some f =>
    cases hi : floppyInsert f img wp with
    | none => exact .inl (by simp [hi])
    | some p => exact .inr ⟨f, p.1, p.2, rfl, hi, by simp [hi]⟩

/-- Everything `eject` can do (R304). -/
theorem hostEject_cases (n : Nat) (s : State) :
    hostEject n s = (s, .refused) ∨
    ∃ f f' msgs img, floppyAt n s = some f ∧ floppyEject f = some (f', msgs, img) ∧
      hostEject n s = ((s.setDevices (s.devices.set n (.floppy f'))).enqueueAll msgs, .image img) := by
  unfold hostEject
  cases hf : floppyAt n s with
  | none => exact .inl rfl
  | some f =>
    cases hi : floppyEject f with
    | none => exact .inl (by simp [hi])
    | some p => exact .inr ⟨f, p.1, p.2.1, p.2.2, rfl, hi, by simp [hi]⟩

/-- Everything a direct device call can do (R129, R282). -/
theorem hostCallDevice_cases (n : Nat) (args : List (Reg × Word)) (s : State) :
    (n < s.devices.length ∧ hostCallDevice n args s = (callDevice n (setRegs s args), .done)) ∨
    (s.devices.length ≤ n ∧ hostCallDevice n args s = (s, .refused)) := by
  unfold hostCallDevice
  split
  · exact .inl ⟨‹_›, rfl⟩
  · exact .inr ⟨Nat.le_of_not_lt ‹_›, rfl⟩

/-- Host operations move the fatal bit by enqueueing only: `interrupt`, `insert`, `eject` and a device call do, the others leave it. -/
theorem hostOp_fireStep (op : HostOp) (s : State) : FireStep s (hostOp op s).1 := by
  have hbus := fireStep_busInvariant s
  have hrefl : FireStep s s := .of_onFire_eq rfl
  cases op with
  | attach d =>
    show FireStep s (hostAttach d s).1
    rcases hostAttach_cases d s with ⟨-, e⟩ | ⟨-, e⟩ <;> rw [e] <;> exact hrefl
  | flash ws =>
    show FireStep s (hostFlash ws s).1
    rcases hostFlash_cases ws s with ⟨-, e⟩ | ⟨-, e⟩ <;> rw [e] <;> exact hrefl
  | reset => exact .of_onFire_eq rfl
  | interrupt m => exact hrefl.enqueue m
  | insert n img wp =>
    show FireStep s (hostInsert n img wp s).1
    rcases hostInsert_cases n img wp s with e | ⟨f, f', msgs, -, -, e⟩ <;> rw [e]
    · exact hrefl
    · exact hbus.enqueueAll msgs (.of_onFire_eq rfl)
  | eject n =>
    show FireStep s (hostEject n s).1
    rcases hostEject_cases n s with e | ⟨f, f', msgs, img, -, -, e⟩ <;> rw [e]
    · exact hrefl
    · exact hbus.enqueueAll msgs (.of_onFire_eq rfl)
  | callDevice n args =>
    show FireStep s (hostCallDevice n args s).1
    rcases hostCallDevice_cases n args s with ⟨-, e⟩ | ⟨-, e⟩ <;> rw [e]
    · exact hbus.callDevice n (.of_onFire_eq (setRegs_onFire args s))
    · exact hrefl

/-! ### The devices -/

/-- At every index of `t` stands the device that stood there in `s`, and there is no other (R35, R281). -/
structure SameDevices (s t : State) : Prop where
  length : t.devices.length = s.devices.length
  at_index : ∀ (n : Nat) (d : Device), s.devices[n]? = some d → ∃ d', t.devices[n]? = some d' ∧ SameDevice d d'

theorem SameDevices.refl (s : State) : SameDevices s s := ⟨rfl, fun _ d hd => ⟨d, hd, .refl d⟩⟩

/-- A device that moves stays the device it is. -/
theorem SameDevices.set {s t : State} (h : SameDevices s t) {n : Nat} {d d' : Device} (hd : t.devices[n]? = some d)
    (hsame : SameDevice d d') : SameDevices s (t.setDevices (t.devices.set n d')) := by
  refine ⟨by simpa using h.length, fun k e he => ?_⟩
  obtain ⟨e', he', hee'⟩ := h.at_index k e he
  by_cases hk : n = k
  · subst hk
    obtain rfl : d = e' := Option.some.inj (hd.symm.trans he')
    obtain ⟨hlt, -⟩ := List.getElem?_eq_some_iff.1 hd
    exact ⟨d', by simp [hlt], hee'.trans hsame⟩
  · exact ⟨e', by simpa [List.getElem?_set_ne hk] using he', hee'⟩

theorem sameDevices_busInvariant (s : State) : BusInvariant (SameDevices s) where
  sameBus h e := ⟨e.devices.symm ▸ h.length, e.devices.symm ▸ h.at_index⟩
  enqueue t m h := ⟨(t.enqueue_devices m).symm ▸ h.length, (t.enqueue_devices m).symm ▸ h.at_index⟩
  interrupt _ _ d v hd h := h.set hd (sameDevice_deviceInterrupt d v)
  cycle _ _ d hd h := h.set hd (sameDevice_deviceCycle d)

theorem step_sameDevices {s t : State} (h : step s = .next t) : SameDevices s t :=
  (sameDevices_busInvariant s).step (fun _ _ _ _ _ h => ⟨h.length, h.at_index⟩) h (.refl s)

theorem SameDevices.map_identity {s t : State} (h : SameDevices s t) :
    t.devices.map deviceIdentity = s.devices.map deviceIdentity := by
  refine List.ext_getElem? fun n => ?_
  simp only [List.getElem?_map]
  cases hd : s.devices[n]? with
  | none =>
    have hn : t.devices[n]? = none := by
      rw [List.getElem?_eq_none_iff, h.length]
      exact List.getElem?_eq_none_iff.1 hd
    simp [hn]
  | some d =>
    obtain ⟨d', hd', -, hid⟩ := h.at_index n d hd
    rw [hd']
    exact congrArg some hid

/-! ### The queue -/

theorem queueExtends_busInvariant (q : List Word) : BusInvariant fun t => ∃ new, t.queue = q ++ new where
  sameBus := fun ⟨new, h⟩ e => ⟨new, e.queue.trans h⟩
  enqueue := by
    rintro t m ⟨new, h⟩
    obtain ⟨new', h'⟩ := t.enqueueAll_queue [m]
    exact ⟨new ++ new', by rw [← List.append_assoc, ← h]; exact h'⟩
  interrupt := fun _ _ _ _ _ h => h
  cycle := fun _ _ _ _ h => h

/-- Sub-step 5 and an instruction put messages at the tail only (R363, R367). -/
theorem cycleDevices_queue (s : State) : ∃ new, (cycleDevices s).queue = s.queue ++ new :=
  (queueExtends_busInvariant s.queue).cycleDevices ⟨[], (List.append_nil _).symm⟩

theorem exec_queue {i : Instr} {s t : State} (h : exec i s = .next t) : ∃ new, t.queue = s.queue ++ new :=
  (queueExtends_busInvariant s.queue).exec h ⟨[], (List.append_nil _).symm⟩

/-- From `q` to the queue of `t`, messages entered at the tail and at most one left, the one `t` is about to serve (R362, R364,
R367). -/
def FifoTo (q : List Word) (t : State) : Prop :=
  ∃ delivered new, q ++ new = delivered ++ t.queue ∧ delivered.length ≤ 1 ∧
    (delivered ≠ [] → t.iaq = true ∧ t.pc = t.ia ∧ delivered = [t.reg .a])

theorem FifoTo.of_append {q new : List Word} {t : State} (h : t.queue = q ++ new) : FifoTo q t :=
  ⟨[], new, h.symm, Nat.zero_le 1, fun hne => absurd rfl hne⟩

/-- Delivery takes the head and leaves it in A (R365). -/
theorem deliver_fifoTo {q new : List Word} {s : State} (h : s.queue = q ++ new) : FifoTo q s.deliver := by
  rcases s.deliver_cases with e | ⟨m, rest, hq, -, -, -, -, e⟩ <;> rw [e]
  · exact .of_append h
  · exact ⟨[m], new, h.symm.trans hq, Nat.le_refl 1, fun _ => ⟨rfl, rfl, by simp⟩⟩

/-- The device calls and the status leave what delivery left but for the tail of the queue (R126, R127). -/
theorem finishCycle_fifoTo {q new : List Word} {s : State} (h : s.queue = q ++ new) : FifoTo q (finishCycle s) := by
  obtain ⟨delivered, new₁, hq, hlen, hserved⟩ := deliver_fifoTo h
  obtain ⟨new₂, hdev⟩ := cycleDevices_queue s.deliver
  have hdone : FifoTo q (cycleDevices s.deliver) := by
    refine ⟨delivered, new₁ ++ new₂, ?_, hlen, by simpa using hserved⟩
    rw [hdev, ← List.append_assoc, hq, List.append_assoc]
  unfold finishCycle settleStatus
  split <;> exact hdone

theorem step_fifoTo {s t : State} (h : step s = .next t) : FifoTo s.queue t := by
  rcases cycle_cases s with ⟨-, e⟩ | ⟨-, -, e⟩ | ⟨-, -, e⟩
  · cases e.symm.trans h
    exact .of_append (List.append_nil _).symm
  · cases e.symm.trans h
    exact finishCycle_fifoTo (List.append_nil _).symm
  · obtain ⟨t', hexec, rfl⟩ := executeCycle_next (e.symm.trans h)
    obtain ⟨new, hnew⟩ := exec_queue hexec
    exact finishCycle_fifoTo hnew

/-! ### EX, IA and the two flags, over one instruction -/

/-- A call of a device that is none of the variants outside the three writes neither EX nor IA (R283). -/
theorem callDevice_ex_ia {n : Nat} {s : State}
    (h : ∀ id kind msg priv, s.devices[n]? ≠ some (.external id kind msg priv)) :
    (callDevice n s).ex = s.ex ∧ (callDevice n s).ia = s.ia := by
  rcases callDevice_cases n s with ⟨-, e⟩ | ⟨d, hd, e⟩ <;> rw [e]
  · exact ⟨rfl, rfl⟩
  · have href := deviceInterrupt_ex_ia (d := d) (fun id kind msg priv hx => h id kind msg priv (hx ▸ hd)) s.view
    simpa using href

theorem exec_ex {i : Instr} {s t : State} (h : exec i s = .next t) (hw : writesEx i = false) (ht : targetOf s i ≠ some .ex)
    (hext : ∀ a id kind msg priv, i = .hwi a → s.devices[(argVal a s).toNat]? ≠ some (.external id kind msg priv)) :
    t.ex = s.ex := by
  cases exec_effect h with
  | write base res e target keepsEx =>
    have hloc : dstLoc _ _ s ≠ .ex := fun hl => ht (target.trans (congrArg some hl))
    simp [keepsEx hw, hloc]
  | storeStep d target =>
    have hloc : dstLoc _ _ s ≠ .ex := fun hl => ht (target.trans (congrArg some hl))
    simp [hloc]
  | @writeArg _ a v n target =>
    have hloc : srcLoc a s ≠ .ex := fun hl => ht (target.trans (congrArg some hl))
    simp [hloc]
  | hwi a n =>
    obtain ⟨hex, -⟩ := callDevice_ex_ia (n := (argVal a s).toNat) (s := afterSrc a s)
      (fun id kind msg priv => by simpa using hext a id kind msg priv rfl)
    simpa using hex
  | goTo | reservedBasic | reservedSpecial | jsr | int | ias | rfi | iaq | hwq => simp

theorem exec_ien {i : Instr} {s t : State} (h : exec i s = .next t) (hi : ∀ a, i ≠ .ias a) : t.ien = s.ien := by
  cases exec_effect h with
  | ias a n => exact absurd rfl (hi a)
  | write | storeStep | goTo | reservedBasic | reservedSpecial | writeArg | jsr | int | rfi | iaq | hwq | hwi => simp

theorem exec_iaq {i : Instr} {s t : State} (h : exec i s = .next t) (hi : ∀ a, i ≠ .iaq a) (hr : ∀ a, i ≠ .rfi a) :
    t.iaq = s.iaq := by
  cases exec_effect h with
  | iaq a n => exact absurd rfl (hi a)
  | rfi a n => exact absurd rfl (hr a)
  | write | storeStep | goTo | reservedBasic | reservedSpecial | writeArg | jsr | int | ias | hwq | hwi => simp

theorem exec_ia {i : Instr} {s t : State} (h : exec i s = .next t) (hi : ∀ a, i ≠ .ias a)
    (hext : ∀ a id kind msg priv, i = .hwi a → s.devices[(argVal a s).toNat]? ≠ some (.external id kind msg priv)) :
    t.ia = s.ia := by
  cases exec_effect h with
  | ias a n => exact absurd rfl (hi a)
  | hwi a n =>
    obtain ⟨-, hia⟩ := callDevice_ex_ia (n := (argVal a s).toNat) (s := afterSrc a s)
      (fun id kind msg priv => by simpa using hext a id kind msg priv rfl)
    simpa using hia
  | write | storeStep | goTo | reservedBasic | reservedSpecial | writeArg | jsr | int | rfi | iaq | hwq => simp

/-! ### Operand resolution -/

theorem operandCost_eq_length (o : Operand) : operandCost o = (operandWords o).length := by cases o <;> rfl

theorem costA_eq_length (a : SrcOperand) : costA a = (srcWords a).length := by
  cases a with
  | com o => exact operandCost_eq_length o
  | pop => rfl
  | short v => rfl

theorem costB_eq_length (b : DstOperand) : costB b = (dstWords b).length := by
  cases b with
  | com o => exact operandCost_eq_length o
  | push => rfl

theorem popBy_eq (a : SrcOperand) : popBy a = if a = .pop then 1 else 0 := by cases a <;> simp [popBy]

theorem pushBy_eq (b : DstOperand) : pushBy b = if b = .push then 1 else 0 := by cases b <;> simp [pushBy]

/-- PC passes the first word and every next word of the operands (R150). -/
theorem resolved_pc_eq_length (b : DstOperand) (a : SrcOperand) (s : State) :
    (resolved b a s).pc = s.pc + BitVec.ofNat 16 (1 + (srcWords a).length + (dstWords b).length) := by
  rw [resolved_pc, costA_eq_length, costB_eq_length, BitVec.ofNat_add, BitVec.ofNat_add, ← BitVec.add_assoc,
    ← BitVec.add_assoc]
  rfl

end Sys2Proof.Machine
end

section
/-! SUPPORT. Decoding what the encoder wrote (spec `30_encoding.md` R90 to R97), for words given one by one as a fetch reads them. -/

namespace Sys2Proof

/-- A shared form takes at most one next word (R93). -/
theorem operandWords_cases (o : Operand) : operandWords o = [] ∨ ∃ n, operandWords o = [n] := by
  cases o with
  | regOff r n | pick n | direct n | lit n => exact .inr ⟨n, rfl⟩
  | reg | regInd | peek | sp | pc | ex => exact .inl rfl

theorem srcWords_cases (a : SrcOperand) : srcWords a = [] ∨ ∃ n, srcWords a = [n] := by
  cases a with
  | com o => exact operandWords_cases o
  | pop | short v => exact .inl rfl

theorem dstWords_cases (b : DstOperand) : dstWords b = [] ∨ ∃ n, dstWords b = [n] := by
  cases b with
  | com o => exact operandWords_cases o
  | push => exact .inl rfl

/-- A shared form's field decodes to the form, given its next word where it takes one (R94). -/
theorem decodeField_encodeOperand {α : Type} (stack : α) (com : Operand → α) {o : Operand} {n : Word}
    (hn : ∀ w ∈ operandWords o, w = n) : decodeField stack com (BitVec.ofNat 5 (encodeOperand o)) n = com o := by
  cases o with
  | reg r | regInd r => cases r <;> rfl
  | regOff r m =>
    obtain rfl : m = n := hn m (List.mem_singleton_self m)
    simp only [encodeOperand]
    cases r <;> rfl
  | pick m | direct m | lit m =>
    obtain rfl : m = n := hn m (List.mem_singleton_self m)
    simp only [encodeOperand]
    rfl
  | peek | sp | pc | ex => rfl

theorem decodeDst_encodeDst {b : DstOperand} {n : Word} (hn : ∀ w ∈ dstWords b, w = n) : decodeDst (encodeDst b) n = b := by
  cases b with
  | com o => exact decodeField_encodeOperand DstOperand.push DstOperand.com hn
  | push => rfl

theorem decodeSrc_encodeSrc {a : SrcOperand} (ha : a.wf = true) {n : Word} (hn : ∀ w ∈ srcWords a, w = n) :
    decodeSrc (encodeSrc a) n = a := by
  cases a with
  | com o =>
    have hlt := encodeOperand_lt o
    have hval : (BitVec.ofNat 6 (encodeOperand o)).toNat = encodeOperand o := by
      rw [BitVec.toNat_ofNat, Nat.mod_eq_of_lt (by omega)]
    have hfield : (BitVec.ofNat 6 (encodeOperand o)).setWidth 5 = BitVec.ofNat 5 (encodeOperand o) := by
      apply BitVec.eq_of_toNat_eq
      rw [BitVec.toNat_setWidth, hval, BitVec.toNat_ofNat]
    unfold decodeSrc encodeSrc
    rw [hval, if_pos hlt, hfield]
    exact decodeField_encodeOperand SrcOperand.pop SrcOperand.com hn
  | pop => rfl
  | short v =>
    obtain ⟨hge, hval⟩ := encodeSrc_short ha
    unfold decodeSrc
    rw [if_neg (Nat.not_lt.2 hge), hval]

/-- The three fields of a basic instruction's words (R91, R94): a's next word stands before b's. -/
theorem fields_of_basicWords {o : BitVec 5} {b : DstOperand} {a : SrcOperand} (ha : a.wf = true) {w : Nat → Word}
    (hw : ∀ k, k < (encodeBasic o b a).length → w k = (encodeBasic o b a).getD k 0) :
    fieldO (w 0) = o ∧ decodeSrc (fieldA (w 0)) (w 1) = a ∧
      decodeDst (fieldB (w 0)) (if nwf (fieldA (w 0)).toNat = 0 then w 1 else w 2) = b := by
  have h0 : w 0 = basicWord o b a := hw 0 (Nat.zero_lt_succ _)
  have hsrc : ∀ x ∈ srcWords a, x = w 1 := by
    rcases srcWords_cases a with h | ⟨n, h⟩
    · simp [h]
    · have := hw 1 (by simp [encodeBasic, h])
      simpa [encodeBasic, h, eq_comm] using this
  have hdst : ∀ x ∈ dstWords b, x = if (srcWords a).length = 0 then w 1 else w 2 := by
    rcases dstWords_cases b with h | ⟨m, h⟩
    · simp [h]
    · rcases srcWords_cases a with g | ⟨n, g⟩
      · have := hw 1 (by simp [encodeBasic, g, h])
        simpa [encodeBasic, g, h, eq_comm] using this
      · have := hw 2 (by simp [encodeBasic, g, h])
        simpa [encodeBasic, g, h, eq_comm] using this
  rw [h0, basicWord, fieldO_firstWord, fieldA_firstWord, fieldB_firstWord, nwf_encodeSrc ha]
  exact ⟨rfl, decodeSrc_encodeSrc ha hsrc, decodeDst_encodeDst hdst⟩

/-- The three fields of a special instruction's words (R92, R94). -/
theorem fields_of_specialWords {so : BitVec 5} {a : SrcOperand} (ha : a.wf = true) {w : Nat → Word}
    (hw : ∀ k, k < (encodeSpecial so a).length → w k = (encodeSpecial so a).getD k 0) :
    fieldO (w 0) = 0 ∧ fieldB (w 0) = so ∧ decodeSrc (fieldA (w 0)) (w 1) = a := by
  have h0 : w 0 = specialWord so a := hw 0 (Nat.zero_lt_succ _)
  have hsrc : ∀ x ∈ srcWords a, x = w 1 := by
    rcases srcWords_cases a with h | ⟨n, h⟩
    · simp [h]
    · have := hw 1 (by simp [encodeSpecial, h])
      simpa [encodeSpecial, h, eq_comm] using this
  rw [h0, specialWord, fieldO_firstWord, fieldA_firstWord, fieldB_firstWord]
  exact ⟨rfl, rfl, decodeSrc_encodeSrc ha hsrc⟩

/-- Words that agree with the encoding of a well-formed instruction as far as it goes decode to it (R90 to R97). -/
theorem decode_of_words {i : Instr} (hwf : i.wf = true) {w : Nat → Word}
    (hw : ∀ k, k < (encode i).length → w k = (encode i).getD k 0) : decode (w 0) (w 1) (w 2) = i := by
  cases i with
  | set b a | add b a | sub b a | mul b a | mli b a | div b a | dvi b a | mod b a | mdi b a | and b a | bor b a | xor b a
  | shr b a | asr b a | shl b a | ifb b a | ifc b a | ife b a | ifn b a | ifg b a | ifa b a | ifl b a | ifu b a | adx b a
  | sbx b a | sti b a | std b a | reservedBasic18 b a | reservedBasic19 b a | reservedBasic1c b a | reservedBasic1d b a =>
    obtain ⟨ho, ha, hb⟩ := fields_of_basicWords (b := b) (a := a) hwf hw
    unfold decode
    rw [ho, ha, hb]
    rfl
  | jsr a | int a | iag a | ias a | rfi a | iaq a | hwn a | hwq a | hwi a
  | reservedSpecial00 a | reservedSpecial02 a | reservedSpecial03 a | reservedSpecial04 a | reservedSpecial05 a
  | reservedSpecial06 a | reservedSpecial07 a | reservedSpecial0d a | reservedSpecial0e a | reservedSpecial0f a
  | reservedSpecial13 a | reservedSpecial14 a | reservedSpecial15 a | reservedSpecial16 a | reservedSpecial17 a
  | reservedSpecial18 a | reservedSpecial19 a | reservedSpecial1a a | reservedSpecial1b a | reservedSpecial1c a
  | reservedSpecial1d a | reservedSpecial1e a | reservedSpecial1f a =>
    obtain ⟨ho, hso, ha⟩ := fields_of_specialWords (a := a) hwf hw
    unfold decode
    rw [ho, hso, ha]
    rfl

end Sys2Proof

namespace Sys2Proof.Machine

/-- A fetch from the words of a well-formed instruction gives the instruction (R24, R122). -/
theorem fetchInstr_of_words {i : Instr} (hwf : i.wf = true) {s : State}
    (hw : ∀ k, k < (encode i).length → s.readMem (s.pc + BitVec.ofNat 16 k) = (encode i).getD k 0) : s.fetchInstr = i := by
  have hdec := decode_of_words hwf (w := fun k => s.readMem (s.pc + BitVec.ofNat 16 k)) hw
  simpa [State.fetchInstr] using hdec

end Sys2Proof.Machine
end

section
/-! SUPPORT. The statements about the state, each settled from the lemmas above. -/

namespace Sys2Proof.Machine

/-- Settles O53: memory stays canonical, and the queue and the devices stay in order through each part of the call. -/
theorem stepKeepsInvariant : Obligations.StepKeepsInvariant := by
  intro s t hs h
  have hbus : BusOk t := busOk_busInvariant.step (fun _ _ _ _ hq h => h.dequeue hq) h hs.busOk
  exact ⟨step_mem_wf h hs.mem, hbus.queue, hbus.count, hbus.devices⟩

/-- Settles O52. -/
theorem resetHasInvariant : Obligations.ResetHasInvariant where
  mem := State.reset_mem_wf
  queue := Nat.zero_le _
  count := Nat.zero_le _
  devices := fun _ hd => absurd hd List.not_mem_nil

/-- Settles O12: an instruction appends, delivery takes the head, the devices append. -/
theorem queueIsFifoOverACall : Obligations.QueueIsFifoOverACall := fun _ _ h => step_fifoTo h

/-- Settles O13, field by field from the frame of `resolved`. -/
theorem resolutionMovesOnlyPcAndSp : Obligations.ResolutionMovesOnlyPcAndSp := by
  intro b a s
  have hcontrol : SameControl s (resolved b a s) := by simp [SameControl]
  refine ⟨resolved_pc_eq_length b a s, ?_, resolved_ex a b s, resolved_reg a b s, resolved_mem a b s, hcontrol,
    resolved_sleepCycles a b s, costA_eq_length a, costB_eq_length b⟩
  rw [resolved_sp, popBy_eq, pushBy_eq]

/-- Settles O47: every part of a call and every host operation is a `FireStep`. -/
theorem fireIsPermanentAndNeedsFullQueue : Obligations.FireIsPermanentAndNeedsFullQueue := by
  have hfull {s t : State} (h : FireStep s t) (hs : s.onFire = false) (ht : t.onFire = true) : 256 ≤ t.queue.length := by
    obtain ⟨-, hset⟩ := h
    exact (hset ht).resolve_left (by simp [hs])
  refine ⟨fun s t h => ?_, fun op s => ?_, fun s t h => hfull (step_fireStep h), fun op s => hfull (hostOp_fireStep op s)⟩
  · obtain ⟨hkeep, -⟩ := step_fireStep h
    exact hkeep
  · obtain ⟨hkeep, -⟩ := hostOp_fireStep op s
    exact hkeep

/-- Settles O55: every device move keeps the device's kind and identity. -/
theorem deviceListNeverChanges : Obligations.DeviceListNeverChanges := by
  intro s t h
  have hsame := step_sameDevices h
  refine ⟨hsame.map_identity, fun n d hd => ?_⟩
  obtain ⟨d', hd', hkind, -⟩ := hsame.at_index n d hd
  exact ⟨d', hd', hkind⟩

/-- Settles O56. -/
theorem exOnlyByListedOpcodes : Obligations.ExOnlyByListedOpcodes := fun _ _ _ h hw ht hext => exec_ex h hw ht hext

/-- Settles O57. -/
theorem interruptStateOnlyByItsInstructions : Obligations.InterruptStateOnlyByItsInstructions :=
  fun _ _ _ h => ⟨exec_ien h, exec_iaq h, exec_ia h⟩

/-- Settles O5: the fetch gives the instruction, and the rest of the call is `finishCycle`. -/
theorem stepRunsDecodedInstruction : Obligations.StepRunsDecodedInstruction := by
  intro s i hf hs hwf hw
  have hfetch : (s.setStatus .ok).fetchInstr = i := fetchInstr_of_words hwf hw
  rcases cycle_cases s with ⟨hf', -⟩ | ⟨-, hs', -⟩ | ⟨-, -, e⟩
  · simp [hf] at hf'
  · exact absurd hs hs'
  · rw [e, executeCycle, hfetch]
    cases exec i (s.setStatus .ok) <;> rfl

/-- Settles O48. -/
theorem resetValues : Obligations.ResetValues := by
  have hregs (r : Reg) : State.reset.reg r = 0 := by cases r <;> rfl
  exact ⟨hregs, rfl, rfl, rfl, rfl, fun _ => rfl, rfl, rfl, rfl, rfl, rfl, rfl⟩

end Sys2Proof.Machine
end

section
/-! SUPPORT. What HWQ does to each field (spec `45_special.md` R259, `20_memory.md` R63): the identity it finds, the five registers it
writes with low words first, and its frame. -/

namespace Sys2Proof.Machine

section
variable (id : Identity) (s : State)

@[simp] theorem deliverIdentity_pc : (deliverIdentity id s).pc = s.pc := rfl
@[simp] theorem deliverIdentity_sp : (deliverIdentity id s).sp = s.sp := rfl
@[simp] theorem deliverIdentity_status : (deliverIdentity id s).status = s.status := rfl
@[simp] theorem deliverIdentity_readMem (n : Word) : (deliverIdentity id s).readMem n = s.readMem n := rfl

@[simp] theorem deliverIdentity_reg_a : (deliverIdentity id s).reg .a = id.deviceId.extractLsb' 0 16 := rfl
@[simp] theorem deliverIdentity_reg_b : (deliverIdentity id s).reg .b = id.deviceId.extractLsb' 16 16 := rfl
@[simp] theorem deliverIdentity_reg_c : (deliverIdentity id s).reg .c = id.version := rfl
@[simp] theorem deliverIdentity_reg_x : (deliverIdentity id s).reg .x = id.manufacturer.extractLsb' 0 16 := rfl
@[simp] theorem deliverIdentity_reg_y : (deliverIdentity id s).reg .y = id.manufacturer.extractLsb' 16 16 := rfl
@[simp] theorem deliverIdentity_reg_z : (deliverIdentity id s).reg .z = s.reg .z := rfl
@[simp] theorem deliverIdentity_reg_i : (deliverIdentity id s).reg .i = s.reg .i := rfl
@[simp] theorem deliverIdentity_reg_j : (deliverIdentity id s).reg .j = s.reg .j := rfl

end

/-- An identity given word by word arrives word by word: A and B the device id, C the version, X and Y the manufacturer, low words
first (R63, R259). -/
theorem deliverIdentity_words (a b c x y : Word) (s : State) (n : Nat) :
    let t := (deliverIdentity { manufacturer := y ++ x, deviceId := b ++ a, version := c } s).setSleep n
    t.reg .a = a ∧ t.reg .b = b ∧ t.reg .c = c ∧ t.reg .x = x ∧ t.reg .y = y :=
  ⟨BitVec.extractLsb'_append_eq_right, BitVec.extractLsb'_append_eq_left, rfl, BitVec.extractLsb'_append_eq_right,
    BitVec.extractLsb'_append_eq_left⟩

/-! The identities of the reference devices, word by word (R288). -/

theorem deviceIdentity_floppy (f : Floppy) :
    deviceIdentity (.floppy f) =
      { manufacturer := (0x1EB3 : Word) ++ (0x7E91 : Word), deviceId := (0x4FD5 : Word) ++ (0x24C5 : Word),
        version := 0x000B } := rfl

theorem deviceIdentity_clock (c : Clock) :
    deviceIdentity (.clock c) =
      { manufacturer := (0 : Word) ++ (0 : Word), deviceId := (0x12D0 : Word) ++ (0xB402 : Word), version := 0x0001 } := rfl

theorem deviceIdentity_display (p : Display) :
    deviceIdentity (.display p) =
      { manufacturer := (0x1EB3 : Word) ++ (0x7E91 : Word), deviceId := (0x42BA : Word) ++ (0xBF3C : Word),
        version := 0x0003 } := rfl

theorem identityAt_of_none {s : State} {n : Nat} (h : s.devices[n]? = none) :
    identityAt s n = { manufacturer := 0, deviceId := 0, version := 0 } := by
  simp [identityAt, h]

theorem identityAt_of_some {s : State} {n : Nat} {d : Device} (h : s.devices[n]? = some d) :
    identityAt s n = deviceIdentity d := by
  simp [identityAt, h]

/-- A double word is its high word before its low word (R63). -/
theorem high_append_low (v : BitVec 32) : v.extractLsb' 16 16 ++ v.extractLsb' 0 16 = v := by
  rw [BitVec.extractLsb'_append_extractLsb'_eq_extractLsb' (by rfl), BitVec.extractLsb'_eq_self]

/-- HWQ completes: the identity is delivered to the state after its operand, at a cost of 4 plus the operand (R124, R259). -/
theorem exec_hwq (a : SrcOperand) (s : State) :
    exec (.hwq a) s =
      .next ((deliverIdentity (identityAt s (argVal a s).toNat) (afterSrc a s)).setSleep (3 + costA a)) := by
  have hcost : 4 + costA a - 1 = 3 + costA a := by omega
  exact hcost ▸ rfl

/-- Settles O36: `exec_hwq` gives the next state; the identity it delivers is read off the device at the index. -/
theorem hwqDeliversIdentity : Obligations.HwqDeliversIdentity := by
  intro a s
  refine ⟨rfl, _, exec_hwq a s, fun n => by simp, by simp [PointersOf], by simp [SameControl], rfl, by simp, by simp, by simp,
    fun hnone => ?_, fun d hd => ?_⟩
  · rw [identityAt_of_none hnone]
    simp
  · rw [identityAt_of_some hd]
    refine ⟨by simp [high_append_low], by simp, by simp [high_append_low], ?_, ?_, ?_⟩
    · rintro f rfl
      rw [deviceIdentity_floppy]
      exact deliverIdentity_words ..
    · rintro c rfl
      rw [deviceIdentity_clock]
      exact deliverIdentity_words ..
    · rintro p rfl
      rw [deviceIdentity_display]
      exact deliverIdentity_words ..

end Sys2Proof.Machine
end

section
/-! SUPPORT. Encoding what the decoder read (spec `30_encoding.md` R90 to R98): each field decodes to an operand that encodes to the
field, and the operand keeps the next word exactly where R93 counts one. -/

namespace Sys2Proof

/-- The three fields are all sixteen bits of a first word (R91). -/
theorem firstWord_fields (w : Word) : firstWord (fieldA w) (fieldB w) (fieldO w) = w := by
  unfold firstWord fieldA fieldB fieldO
  rw [BitVec.extractLsb'_append_extractLsb'_eq_extractLsb' (by rfl), BitVec.extractLsb'_append_extractLsb'_eq_extractLsb' (by rfl),
    BitVec.extractLsb'_eq_self]

theorem nwf_cases (v : Nat) : nwf v = 0 ∨ nwf v = 1 := by
  unfold nwf
  split
  · exact .inr rfl
  · exact .inl rfl

theorem encodeReg_decodeReg (k : BitVec 3) : encodeReg (decodeReg k) = k.toNat := by
  revert k
  decide

/-- A five-bit field is its form (bits 4:3) before its register number (bits 2:0). -/
theorem field_toNat (v : BitVec 5) : v.toNat = 8 * (v.extractLsb' 3 2).toNat + (v.extractLsb' 0 3).toNat := by
  revert v
  decide

/-- A field below 0x20 decodes to the stack form, at 0x18 only, or to the shared form whose field value it is; that form keeps no
word but the one it was given (R94). -/
theorem decodeField_cases {α : Type} (stack : α) (com : Operand → α) (v : BitVec 5) (n : Word) :
    (decodeField stack com v n = stack ∧ v = 0x18) ∨
    ∃ o, decodeField stack com v n = com o ∧ encodeOperand o = v.toNat ∧ ∀ x ∈ operandWords o, x = n := by
  have hv := field_toNat v
  have hreg := encodeReg_decodeReg (v.extractLsb' 0 3)
  unfold decodeField
  dsimp only
  split
  case h_1 | h_2 => exact .inr ⟨_, rfl, by simp only [encodeOperand]; omega, by simp [operandWords]⟩
  case h_3 =>
    split
    case h_8 =>
      have hlow : (v.extractLsb' 0 3).toNat = 0 := by simp only [imp_false] at *; omega
      exact .inl ⟨rfl, BitVec.eq_of_toNat_eq (show v.toNat = 0x18 by omega)⟩
    all_goals exact .inr ⟨_, rfl, by simp only [encodeOperand]; omega, by simp [operandWords]⟩
  case h_4 =>
    have hhigh : (v.extractLsb' 3 2).toNat = 0 := by simp only [imp_false] at *; omega
    exact .inr ⟨_, rfl, by simp only [encodeOperand]; omega, by simp [operandWords]⟩

/-- A shared form that keeps no word but `n` keeps as many as R93 counts for its field value. -/
theorem operandWords_eq_replicate {o : Operand} {n : Word} (h : ∀ x ∈ operandWords o, x = n) :
    operandWords o = List.replicate (nwf (encodeOperand o)) n :=
  List.eq_replicate_iff.2 ⟨(nwf_encodeOperand o).symm, h⟩

@[simp] theorem encodeDst_decodeDst (v : BitVec 5) (n : Word) : encodeDst (decodeDst v n) = v := by
  rcases decodeField_cases DstOperand.push .com v n with ⟨hdec, rfl⟩ | ⟨o, hdec, hval, -⟩
  · rfl
  · rw [decodeDst, hdec, encodeDst, hval, BitVec.ofNat_toNat, BitVec.setWidth_eq]

@[simp] theorem dstWords_decodeDst (v : BitVec 5) (n : Word) : dstWords (decodeDst v n) = List.replicate (nwf v.toNat) n := by
  rcases decodeField_cases DstOperand.push .com v n with ⟨hdec, rfl⟩ | ⟨o, hdec, hval, hwords⟩
  · rfl
  · rw [decodeDst, hdec, dstWords, operandWords_eq_replicate hwords, hval]

/-- The `a` field decodes to POP, at 0x18 only, to a shared form as `decodeField_cases` says, or to a short literal (R94, R95). -/
theorem decodeSrc_cases (v : BitVec 6) (n : Word) :
    (decodeSrc v n = .pop ∧ v = 0x18) ∨
    (∃ o, decodeSrc v n = .com o ∧ encodeOperand o = v.toNat ∧ ∀ x ∈ operandWords o, x = n) ∨
    (decodeSrc v n = .short (BitVec.ofNat 16 v.toNat - 0x21) ∧ 0x20 ≤ v.toNat) := by
  unfold decodeSrc
  split
  case isTrue hlt =>
    have hval : (v.setWidth 5).toNat = v.toNat := by rw [BitVec.toNat_setWidth, Nat.mod_eq_of_lt hlt]
    rcases decodeField_cases SrcOperand.pop .com (v.setWidth 5) n with ⟨hdec, h18⟩ | ⟨o, hdec, ho, hwords⟩
    · exact .inl ⟨hdec, BitVec.eq_of_toNat_eq (by rw [← hval, h18]; rfl)⟩
    · exact .inr (.inl ⟨o, hdec, ho.trans hval, hwords⟩)
  case isFalse hge => exact .inr (.inr ⟨rfl, Nat.le_of_not_lt hge⟩)

/-- The 32 field values from 0x20 up name the 32 short literals (R95). -/
theorem short_of_field (v : BitVec 6) (h : 0x20 ≤ v.toNat) :
    (SrcOperand.short (BitVec.ofNat 16 v.toNat - 0x21)).wf = true ∧ encodeSrc (.short (BitVec.ofNat 16 v.toNat - 0x21)) = v := by
  revert v
  decide

@[simp] theorem decodeSrc_wf (v : BitVec 6) (n : Word) : (decodeSrc v n).wf = true := by
  rcases decodeSrc_cases v n with ⟨hdec, -⟩ | ⟨o, hdec, -⟩ | ⟨hdec, hge⟩
  · rw [hdec]; rfl
  · rw [hdec]; rfl
  · rw [hdec]; exact (short_of_field v hge).1

@[simp] theorem encodeSrc_decodeSrc (v : BitVec 6) (n : Word) : encodeSrc (decodeSrc v n) = v := by
  rcases decodeSrc_cases v n with ⟨hdec, rfl⟩ | ⟨o, hdec, hval, -⟩ | ⟨hdec, hge⟩
  · rfl
  · rw [hdec, encodeSrc, hval, BitVec.ofNat_toNat, BitVec.setWidth_eq]
  · rw [hdec]; exact (short_of_field v hge).2

@[simp] theorem srcWords_decodeSrc (v : BitVec 6) (n : Word) : srcWords (decodeSrc v n) = List.replicate (nwf v.toNat) n := by
  rcases decodeSrc_cases v n with ⟨hdec, rfl⟩ | ⟨o, hdec, hval, hwords⟩ | ⟨hdec, hge⟩
  · rfl
  · rw [hdec, srcWords, operandWords_eq_replicate hwords, hval]
  · rw [hdec, srcWords, nwf_of_ge hge, List.replicate_zero]

/-- Every special opcode has a row, which encodes to it (R97, R98). -/
theorem src_encode_decodeSpecial (so : BitVec 5) (a : SrcOperand) :
    (decodeSpecial so a).src = a ∧ encode (decodeSpecial so a) = encodeSpecial so a := by
  obtain ⟨⟨k, hk⟩⟩ := so
  interval_cases k
  all_goals exact ⟨rfl, rfl⟩

/-- Opcode zero marks the special format (R92). -/
theorem decode_of_fieldO_eq_zero {w0 : Word} (h : fieldO w0 = 0) (w1 w2 : Word) :
    decode w0 w1 w2 = decodeSpecial (fieldB w0) (decodeSrc (fieldA w0) w1) := by
  unfold decode
  rw [h]
  rfl

/-- Every nonzero basic opcode has a row, which encodes to it (R91, R96, R98). -/
theorem src_encode_decode_basic {w0 : Word} (h : fieldO w0 ≠ 0) (w1 w2 : Word) :
    (decode w0 w1 w2).src = decodeSrc (fieldA w0) w1 ∧
    encode (decode w0 w1 w2) = encodeBasic (fieldO w0)
      (decodeDst (fieldB w0) (if nwf (fieldA w0).toNat = 0 then w1 else w2)) (decodeSrc (fieldA w0) w1) := by
  unfold decode
  generalize fieldO w0 = o at h ⊢
  obtain ⟨⟨k, hk⟩⟩ := o
  have hpos : 0 < k := Nat.pos_of_ne_zero fun hzero => h (BitVec.eq_of_toNat_eq hzero)
  interval_cases k
  all_goals exact ⟨rfl, rfl⟩

theorem decode_wf (w0 w1 w2 : Word) : (decode w0 w1 w2).wf = true := by
  have hsrc : (decode w0 w1 w2).src = decodeSrc (fieldA w0) w1 := by
    by_cases h : fieldO w0 = 0
    · obtain ⟨hsrc, -⟩ := src_encode_decodeSpecial (fieldB w0) (decodeSrc (fieldA w0) w1)
      rw [decode_of_fieldO_eq_zero h, hsrc]
    · obtain ⟨hsrc, -⟩ := src_encode_decode_basic h w1 w2
      exact hsrc
  rw [Instr.wf, hsrc, decodeSrc_wf]

/-- No bit of the words an instruction occupies is lost (R90, R93). -/
theorem encode_decode (w0 w1 w2 : Word) : encode (decode w0 w1 w2) = [w0, w1, w2].take (wordLength w0) := by
  by_cases h : fieldO w0 = 0
  · obtain ⟨-, henc⟩ := src_encode_decodeSpecial (fieldB w0) (decodeSrc (fieldA w0) w1)
    rw [decode_of_fieldO_eq_zero h, henc, encodeSpecial, specialWord, encodeSrc_decodeSrc, ← h, firstWord_fields,
      srcWords_decodeSrc, wordLength, if_pos h]
    rcases nwf_cases (fieldA w0).toNat with ha | ha <;> rw [ha] <;> rfl
  · obtain ⟨-, henc⟩ := src_encode_decode_basic h w1 w2
    rw [henc, encodeBasic, basicWord, encodeSrc_decodeSrc, encodeDst_decodeDst, firstWord_fields, srcWords_decodeSrc,
      dstWords_decodeDst, wordLength, if_neg h]
    rcases nwf_cases (fieldA w0).toNat with ha | ha <;> rcases nwf_cases (fieldB w0).toNat with hb | hb <;> rw [ha, hb] <;> rfl

theorem wordLength_bounds (w : Word) : 1 ≤ wordLength w ∧ wordLength w ≤ 3 := by
  have ha := nwf_cases (fieldA w).toNat
  have hb := nwf_cases (fieldB w).toNat
  unfold wordLength
  split <;> omega

end Sys2Proof

namespace Sys2Proof.Laws.EncodedLength

/-- The per-instruction family over all 63 rows: its two formats. -/
theorem every_row (i : Instr) : Statement i := by
  intro hwf
  cases i with
  | set b a | add b a | sub b a | mul b a | mli b a | div b a | dvi b a | mod b a | mdi b a | and b a | bor b a | xor b a
  | shr b a | asr b a | shl b a | ifb b a | ifc b a | ife b a | ifn b a | ifg b a | ifa b a | ifl b a | ifu b a | adx b a
  | sbx b a | sti b a | std b a | reservedBasic18 b a | reservedBasic19 b a | reservedBasic1c b a | reservedBasic1d b a =>
    exact of_basic (by decide) hwf
  | jsr a | int a | iag a | ias a | rfi a | iaq a | hwn a | hwq a | hwi a
  | reservedSpecial00 a | reservedSpecial02 a | reservedSpecial03 a | reservedSpecial04 a | reservedSpecial05 a
  | reservedSpecial06 a | reservedSpecial07 a | reservedSpecial0d a | reservedSpecial0e a | reservedSpecial0f a
  | reservedSpecial13 a | reservedSpecial14 a | reservedSpecial15 a | reservedSpecial16 a | reservedSpecial17 a
  | reservedSpecial18 a | reservedSpecial19 a | reservedSpecial1a a | reservedSpecial1b a | reservedSpecial1c a
  | reservedSpecial1d a | reservedSpecial1e a | reservedSpecial1f a =>
    exact of_special hwf

end Sys2Proof.Laws.EncodedLength
end

section
/-! SUPPORT. Which first words are reserved encodings (R98), read off the encoder, and the statements about the encoding. -/

namespace Sys2Proof.Machine

/-- The reserved opcode values of the two formats (R98), as a condition on a first word. -/
def ReservedWord (w : Word) : Prop :=
  (fieldO w).toNat ∈ [0x18, 0x19, 0x1c, 0x1d] ∨
  ((fieldO w).toNat = 0 ∧ ((fieldB w).toNat ∈ [0x00, 0x02, 0x03, 0x04, 0x05, 0x06, 0x07, 0x0d, 0x0e, 0x0f] ∨
    0x13 ≤ (fieldB w).toNat))

theorem reservedWord_basicWord {o : BitVec 5} (ho : o.toNat ≠ 0) (b : DstOperand) (a : SrcOperand) :
    ReservedWord (basicWord o b a) ↔ o.toNat ∈ [0x18, 0x19, 0x1c, 0x1d] := by
  simp [ReservedWord, basicWord, ho]

theorem reservedWord_specialWord (so : BitVec 5) (a : SrcOperand) :
    ReservedWord (specialWord so a) ↔
      so.toNat ∈ [0x00, 0x02, 0x03, 0x04, 0x05, 0x06, 0x07, 0x0d, 0x0e, 0x0f] ∨ 0x13 ≤ so.toNat := by
  simp [ReservedWord, specialWord]

/-- The reserved rows are those whose first word has a reserved opcode value. -/
theorem isReserved_iff_head {i : Instr} {w : Word} (hw : (encode i).head? = some w) : isReserved i = true ↔ ReservedWord w := by
  cases i with
  | set b a | add b a | sub b a | mul b a | mli b a | div b a | dvi b a | mod b a | mdi b a | and b a | bor b a | xor b a
  | shr b a | asr b a | shl b a | ifb b a | ifc b a | ife b a | ifn b a | ifg b a | ifa b a | ifl b a | ifu b a | adx b a
  | sbx b a | sti b a | std b a =>
    obtain rfl := Option.some.inj hw
    exact iff_of_false Bool.false_ne_true (mt (reservedWord_basicWord (by decide) b a).1 (by decide))
  | reservedBasic18 b a | reservedBasic19 b a | reservedBasic1c b a | reservedBasic1d b a =>
    obtain rfl := Option.some.inj hw
    exact iff_of_true rfl ((reservedWord_basicWord (by decide) b a).2 (by decide))
  | jsr a | int a | iag a | ias a | rfi a | iaq a | hwn a | hwq a | hwi a =>
    obtain rfl := Option.some.inj hw
    exact iff_of_false Bool.false_ne_true (mt (reservedWord_specialWord _ a).1 (by decide))
  | reservedSpecial00 a | reservedSpecial02 a | reservedSpecial03 a | reservedSpecial04 a | reservedSpecial05 a
  | reservedSpecial06 a | reservedSpecial07 a | reservedSpecial0d a | reservedSpecial0e a | reservedSpecial0f a
  | reservedSpecial13 a | reservedSpecial14 a | reservedSpecial15 a | reservedSpecial16 a | reservedSpecial17 a
  | reservedSpecial18 a | reservedSpecial19 a | reservedSpecial1a a | reservedSpecial1b a | reservedSpecial1c a
  | reservedSpecial1d a | reservedSpecial1e a | reservedSpecial1f a =>
    obtain rfl := Option.some.inj hw
    exact iff_of_true rfl ((reservedWord_specialWord _ a).2 (by decide))

/-- Settles O1: the length R93 reads off the first word is the encoding's, so the decoder sees the instruction's words in place
(`decode_of_words`) and drops exactly them. -/
theorem decodeOfEncode : Obligations.DecodeOfEncode := by
  intro i rest hwf
  obtain ⟨w, ws, henc, hlen⟩ := Laws.EncodedLength.every_row i hwf
  have hdec : decode w ((ws ++ rest).getD 0 0) ((ws ++ rest).getD 1 0) = i := by
    have hwords (k : Nat) (hk : k < (encode i).length) : (w :: (ws ++ rest)).getD k 0 = (encode i).getD k 0 := by
      rw [← List.cons_append, ← henc]
      exact List.getD_append _ _ _ _ hk
    exact decode_of_words hwf (w := fun k => (w :: (ws ++ rest)).getD k 0) hwords
  have hfits : ¬ (w :: (ws ++ rest)).length < wordLength w := by
    rw [← hlen, henc, ← List.cons_append, List.length_append]
    omega
  have hdrop : (w :: (ws ++ rest)).drop (wordLength w) = rest := by
    rw [← hlen, henc, ← List.cons_append, List.drop_left]
  rw [henc, List.cons_append, decodeList, if_neg hfits, hdec, hdrop]

/-- Settles O2: the fields are recovered one by one, and R93's length is the number of words kept. -/
theorem encodeOfDecode : Obligations.EncodeOfDecode :=
  fun w0 w1 w2 => ⟨decode_wf w0 w1 w2, encode_decode w0 w1 w2, wordLength_bounds w0⟩

/-- Settles O4: the decoded instruction encodes to the first word it was read from, which says whether its row is reserved. -/
theorem reservedFirstWords : Obligations.ReservedFirstWords := by
  intro w0 w1 w2
  have hhead : (encode (decode w0 w1 w2)).head? = some w0 := by
    obtain ⟨n, hn⟩ := Nat.exists_eq_add_of_le' (wordLength_bounds w0).1
    rw [encode_decode, hn, List.take_succ_cons, List.head?_cons]
  exact isReserved_iff_head hhead

/-- Settles O3. -/
theorem sampleWordsDecode : Obligations.SampleWordsDecode := by
  unfold Obligations.SampleWordsDecode
  decide

end Sys2Proof.Machine
end

section
/-! SUPPORT. Sub-step 5, device by device (R126, R128, R284, R285): what a clock's `cycle()` does, what enqueueing several messages
leaves, and how far the devices have come after the first `k` of them were called. -/

namespace Sys2Proof.Machine

/-! ### The clock's `cycle()` -/

/-- Everything one `cycle()` of a clock can do (R332, R337). -/
theorem clockCycle_cases (c : Clock) :
    (c.period = 0 ∧ clockCycle c = (c, [])) ∨
    (c.period ≠ 0 ∧ c.cycles + 1 < c.period.toNat ∧ clockCycle c = ({ c with cycles := c.cycles + 1 }, [])) ∨
    (c.period ≠ 0 ∧ c.period.toNat ≤ c.cycles + 1 ∧
      clockCycle c = ({ c with cycles := 0, ticks := c.ticks + 1 }, if c.msg ≠ 0 then [c.msg] else [])) := by
  have hscale : c.period.toNat * params.clockScale = c.period.toNat := Nat.mul_one _
  unfold clockCycle
  rw [hscale]
  split
  · exact .inl ⟨‹_›, rfl⟩
  · split
    · exact .inr (.inl ⟨‹_›, ‹_›, rfl⟩)
    · exact .inr (.inr ⟨‹_›, Nat.le_of_not_lt ‹_›, rfl⟩)

/-- A clock moves by R337. -/
theorem deviceCycle_clock (c : Clock) :
    (deviceCycle (.clock c)).1 = if c.period = 0 then .clock c
      else if c.period.toNat ≤ c.cycles + 1 then .clock { c with cycles := 0, ticks := c.ticks + 1 }
      else .clock { c with cycles := c.cycles + 1 } := by
  rw [deviceCycle]
  rcases clockCycle_cases c with ⟨hp, e⟩ | ⟨hp, hlt, e⟩ | ⟨hp, hle, e⟩ <;> rw [e]
  · rw [if_pos hp]
  · rw [if_neg hp, if_neg (Nat.not_le_of_lt hlt)]
  · rw [if_neg hp, if_pos hle]

/-- A clock returns its message at its tick, if that is nonzero (R285, R337). -/
theorem deviceCycle_clock_messages (c : Clock) :
    (deviceCycle (.clock c)).2 = if c.period ≠ 0 ∧ c.period.toNat ≤ c.cycles + 1 ∧ c.msg ≠ 0 then [c.msg] else [] := by
  rw [deviceCycle]
  rcases clockCycle_cases c with ⟨hp, e⟩ | ⟨-, hlt, e⟩ | ⟨hp, hle, e⟩ <;> rw [e]
  · rw [if_neg fun h => h.1 hp]
  · rw [if_neg fun h => Nat.not_le_of_lt hlt h.2.1]
  · simp only [hp, hle, ne_eq, not_false_eq_true, true_and]

/-! ### Enqueueing several messages -/

theorem State.enqueueAll_of_onFire {s : State} (hf : s.onFire = true) (ms : List Word) : s.enqueueAll ms = s := by
  induction ms with
  | nil => rfl
  | cons m ms ih =>
    have hm : s.enqueue m = s := if_pos hf
    rw [State.enqueueAll, hm, ih]

/-- Either every message enters the queue, or one of them finds it full and the CPU catches fire (R363, R368). -/
theorem State.enqueueAll_cases {s : State} (hf : s.onFire = false) (ms : List Word) :
    ((s.enqueueAll ms).onFire = false ∧ (s.enqueueAll ms).queue = s.queue ++ ms) ∨
    ((s.enqueueAll ms).onFire = true ∧ ∃ pre m rest, ms = pre ++ m :: rest ∧
      (s.enqueueAll ms).queue = s.queue ++ pre ∧ params.queueCap ≤ (s.enqueueAll ms).queue.length) := by
  induction ms generalizing s with
  | nil => exact .inl ⟨hf, (List.append_nil _).symm⟩
  | cons m ms ih =>
    rw [State.enqueueAll]
    rcases s.enqueue_cases m with ⟨hf', -⟩ | ⟨-, hfull, e⟩ | ⟨-, -, e⟩
    · simp [hf] at hf'
    · rw [e, State.enqueueAll_of_onFire (State.setOnFire_onFire s true)]
      exact .inr ⟨rfl, [], m, ms, rfl, (List.append_nil _).symm, hfull⟩
    · rw [e]
      rcases ih (s := s.setQueue (s.queue ++ [m])) hf with ⟨hf', hq⟩ | ⟨hf', pre, m', rest, hms, hq, hfull⟩
      · exact .inl ⟨hf', by simpa using hq⟩
      · exact .inr ⟨hf', m :: pre, m', rest, by rw [hms, List.cons_append], by simpa using hq, hfull⟩

/-! ### The devices called so far -/

/-- The device list once the first `k` devices have moved by their own `cycle()`. -/
def movedUpTo (ds : List Device) (k : Nat) : List Device := (ds.take k).map (fun d => (deviceCycle d).1) ++ ds.drop k

/-- The messages the first `k` devices return, in attachment order (R126). -/
def messagesUpTo (ds : List Device) (k : Nat) : List Word := (ds.take k).flatMap fun d => (deviceCycle d).2

@[simp] theorem movedUpTo_length (ds : List Device) : movedUpTo ds ds.length = ds.map fun d => (deviceCycle d).1 := by
  simp [movedUpTo]

@[simp] theorem messagesUpTo_length (ds : List Device) : messagesUpTo ds ds.length = ds.flatMap fun d => (deviceCycle d).2 := by
  simp [messagesUpTo]

section
variable {ds : List Device} {k : Nat} {d : Device} (h : ds[k]? = some d)
include h

/-- The next device to be called is still as it was. -/
theorem movedUpTo_getElem? : (movedUpTo ds k)[k]? = some d := by
  obtain ⟨hk, rfl⟩ := List.getElem?_eq_some_iff.1 h
  simp [movedUpTo, List.getElem?_append_right, hk.le]

theorem movedUpTo_succ : (movedUpTo ds k).set k (deviceCycle d).1 = movedUpTo ds (k + 1) := by
  obtain ⟨hk, rfl⟩ := List.getElem?_eq_some_iff.1 h
  have hlen : ((ds.take k).map fun d => (deviceCycle d).1).length = k := by simp [hk.le]
  rw [movedUpTo, movedUpTo, List.take_succ_eq_append_getElem hk, List.set_append_right _ _ hlen.le, hlen, Nat.sub_self,
    List.drop_eq_getElem_cons hk, List.set_cons_zero, List.map_append, List.append_assoc]
  rfl

theorem messagesUpTo_succ : messagesUpTo ds (k + 1) = messagesUpTo ds k ++ (deviceCycle d).2 := by
  obtain ⟨hk, rfl⟩ := List.getElem?_eq_some_iff.1 h
  rw [messagesUpTo, messagesUpTo, List.take_succ_eq_append_getElem hk, List.flatMap_append, List.flatMap_singleton]

end

/-- Device `d` of `s`, at index `j`, returned a message that found the queue full: `t` is the state it left (R126, R128, R368). -/
structure CaughtFireAt (s t : State) (j : Nat) (d : Device) (pre : List Word) (m : Word) (rest : List Word) : Prop where
  onFire : t.onFire = true
  device : s.devices[j]? = some d
  messages : (deviceCycle d).2 = pre ++ m :: rest
  queue : t.queue = s.queue ++ messagesUpTo s.devices j ++ pre
  full : params.queueCap ≤ t.queue.length
  devices : t.devices = movedUpTo s.devices (j + 1)

/-- `t` is what calling the first `k` devices of `s` leaves: all of them have moved, or one of them set the CPU on fire. -/
inductive DeviceTurns (s : State) (k : Nat) (t : State) : Prop where
  | quiet (onFire : t.onFire = false) (devices : t.devices = movedUpTo s.devices k)
      (queue : t.queue = s.queue ++ messagesUpTo s.devices k)
  | fire {j : Nat} {d : Device} {pre : List Word} {m : Word} {rest : List Word} (at_device : CaughtFireAt s t j d pre m rest)

/-- One more device is called (R126), unless the CPU is on fire (R128). -/
theorem DeviceTurns.succ {s t : State} {k : Nat} (hk : k < s.devices.length) (h : DeviceTurns s k t) :
    DeviceTurns s (k + 1) (cycleDevice t k) := by
  cases h with
  | fire hfire =>
    have hskip : cycleDevice t k = t := if_pos hfire.onFire
    exact hskip.symm ▸ .fire hfire
  | quiet hf hdev hq =>
    obtain ⟨d, hd⟩ : ∃ d, s.devices[k]? = some d := ⟨_, List.getElem?_eq_getElem hk⟩
    have hcall : cycleDevice t k = (t.setDevices (movedUpTo s.devices (k + 1))).enqueueAll (deviceCycle d).2 := by
      simp [cycleDevice, hf, hdev, movedUpTo_getElem? hd, movedUpTo_succ hd]
    rw [hcall]
    rcases State.enqueueAll_cases (s := t.setDevices (movedUpTo s.devices (k + 1))) hf (deviceCycle d).2 with
      ⟨hf', hq'⟩ | ⟨hf', pre, m, rest, hms, hq', hfull⟩
    · refine .quiet hf' (State.enqueueAll_devices _ _) ?_
      rw [hq', State.setDevices_queue, hq, messagesUpTo_succ hd, List.append_assoc]
    · refine .fire ⟨hf', hd, hms, ?_, hfull, State.enqueueAll_devices _ _⟩
      rw [hq', State.setDevices_queue, hq]

/-- Sub-step 5 calls every device, in attachment order (R126). -/
theorem cycleDevices_turns {s : State} (hf : s.onFire = false) : DeviceTurns s s.devices.length (cycleDevices s) := by
  have hturns (k : Nat) (hk : k ≤ s.devices.length) : DeviceTurns s k ((List.range k).foldl cycleDevice s) := by
    induction k with
    | zero => exact .quiet hf rfl (List.append_nil _).symm
    | succ k ih =>
      rw [List.range_succ, List.foldl_concat]
      exact (ih (Nat.le_of_lt hk)).succ hk
  exact hturns s.devices.length (Nat.le_refl _)

/-- On fire no device is called (R128). -/
theorem cycleDevices_of_onFire {s : State} (hf : s.onFire = true) : cycleDevices s = s :=
  cycleDevices_induct (P := fun t => t = s) (fun _ _ ht => ht.symm ▸ if_pos hf) rfl

/-- Without a fire every device has moved and every message has been enqueued (R126, R285). -/
theorem cycleDevices_of_not_onFire {s : State} (hf : (cycleDevices s).onFire = false) :
    (cycleDevices s).devices = s.devices.map (fun d => (deviceCycle d).1) ∧
    (cycleDevices s).queue = s.queue ++ s.devices.flatMap fun d => (deviceCycle d).2 := by
  have hs : s.onFire = false := by
    by_contra hs
    have hfire : s.onFire = true := by simpa using hs
    simp [cycleDevices_of_onFire hfire, hfire] at hf
  cases cycleDevices_turns hs with
  | quiet _ hdev hq => exact ⟨by simpa using hdev, by simpa using hq⟩
  | fire h => simp [h.onFire] at hf

end Sys2Proof.Machine
end

section
/-! SUPPORT. The parts of a `cycle()` call and what each leaves (spec `40_execution_cycle.md` R120 to R128): delivery, the end of the
call, the status an instruction sets, the call that sleeps and the call on fire. -/

namespace Sys2Proof.Machine

/-! ### Delivery -/

section
variable (s : State)

/-- Delivery takes the head off the queue where it may (R125, R364, R365). -/
theorem State.deliver_queue : s.deliver.queue = if s.canDeliver then s.queue.tail else s.queue := by
  unfold State.deliver
  cases hq : s.queue with
  | nil => simp [hq]
  | cons m rest =>
    cases hc : s.canDeliver with
    | false => simp [hq]
    | true => simp

@[simp] theorem State.deliver_ex : s.deliver.ex = s.ex := by
  rcases s.deliver_cases with e | ⟨m, rest, -, -, -, -, -, e⟩ <;> simp [e]

@[simp] theorem State.deliver_ia : s.deliver.ia = s.ia := by
  rcases s.deliver_cases with e | ⟨m, rest, -, -, -, -, -, e⟩ <;> simp [e]

@[simp] theorem State.deliver_ien : s.deliver.ien = s.ien := by
  rcases s.deliver_cases with e | ⟨m, rest, -, -, -, -, -, e⟩ <;> simp [e]

@[simp] theorem State.deliver_devices : s.deliver.devices = s.devices := by
  rcases s.deliver_cases with e | ⟨m, rest, -, -, -, -, -, e⟩ <;> simp [e]

@[simp] theorem State.deliver_onFire : s.deliver.onFire = s.onFire := by
  rcases s.deliver_cases with e | ⟨m, rest, -, -, -, -, -, e⟩ <;> simp [e]

@[simp] theorem State.deliver_status : s.deliver.status = s.status := by
  rcases s.deliver_cases with e | ⟨m, rest, -, -, -, -, -, e⟩ <;> simp [e]

end

/-- One of the conditions of R364 is missing: nothing is delivered. -/
theorem State.deliver_eq_self {s : State} (h : s.queue = [] ∨ s.ien = false ∨ s.ia = 0 ∨ s.iaq = true) : s.deliver = s := by
  rcases s.deliver_cases with e | ⟨m, rest, hq, -, hien, hia, hiaq, -⟩
  · exact e
  · simp [hq, hien, hiaq] at h
    exact absurd h hia

/-- All conditions of R364 hold: the head is delivered. -/
theorem State.deliver_eq_takeInterrupt {s : State} {m : Word} {rest : List Word} (hq : s.queue = m :: rest)
    (hf : s.onFire = false) (hien : s.ien = true) (hia : s.ia ≠ 0) (hiaq : s.iaq = false) :
    s.deliver = s.takeInterrupt m rest := by
  have hc : s.canDeliver = true := by simpa [State.canDeliver, hf, hien, hiaq] using hia
  simp [State.deliver, hq, hc]

/-! ### The end of a call -/

/-- Everything the settling of the status can do (R127). -/
theorem settleStatus_cases (s : State) :
    (s.onFire = true ∧ settleStatus s = s.setStatus .onFire) ∨ (s.onFire = false ∧ settleStatus s = s) := by
  cases hf : s.onFire with
  | true => exact .inl ⟨rfl, if_pos hf⟩
  | false => exact .inr ⟨rfl, by simp [settleStatus, hf]⟩

section
variable (s : State)

@[simp] theorem settleStatus_onFire : (settleStatus s).onFire = s.onFire := by
  rcases settleStatus_cases s with ⟨-, e⟩ | ⟨-, e⟩ <;> simp [e]

/-- `OnFire` has priority (R127). -/
@[simp] theorem settleStatus_status : (settleStatus s).status = if s.onFire then .onFire else s.status := by
  rcases settleStatus_cases s with ⟨hf, e⟩ | ⟨hf, e⟩ <;> simp [e, hf]

/-- After delivery a call writes the queue, the fatal bit, the devices and the status only. -/
theorem finishCycle_frame :
    SameRegs s.deliver (finishCycle s) ∧ SameMemory s.deliver (finishCycle s) ∧ PointersOf s.deliver (finishCycle s) ∧
    SameInterruptControl s.deliver (finishCycle s) := by
  unfold finishCycle
  rcases settleStatus_cases (cycleDevices s.deliver) with ⟨-, e⟩ | ⟨-, e⟩ <;>
    simp [e, SameRegs, SameMemory, PointersOf, SameInterruptControl]

theorem finishCycle_status :
    (finishCycle s).status = if (finishCycle s).onFire then .onFire else s.status := by
  simp [finishCycle]

end

/-- On fire nothing is delivered and no device is called (R128). -/
theorem finishCycle_of_onFire {s : State} (hf : s.onFire = true) : finishCycle s = s.setStatus .onFire := by
  have hdel : s.deliver = s := by
    rcases s.deliver_cases with e | ⟨m, rest, -, hf', -⟩
    · exact e
    · simp [hf] at hf'
  rw [finishCycle, hdel, cycleDevices_of_onFire hf, settleStatus, if_pos hf]

/-- Without a fire every device has moved, and its messages stand behind what delivery left in the queue (R125, R126). -/
theorem finishCycle_of_not_onFire {s : State} (hf : (finishCycle s).onFire = false) :
    (finishCycle s).devices = s.devices.map (fun d => (deviceCycle d).1) ∧
    (finishCycle s).queue = s.deliver.queue ++ s.devices.flatMap fun d => (deviceCycle d).2 := by
  have hquiet : (cycleDevices s.deliver).onFire = false := by simpa [finishCycle] using hf
  have hfinish : finishCycle s = cycleDevices s.deliver := by simp [finishCycle, settleStatus, hquiet]
  have hdev := cycleDevices_of_not_onFire hquiet
  rwa [State.deliver_devices, ← hfinish] at hdev

/-! ### The call on fire and the call that sleeps -/

theorem step_of_onFire {s : State} (hf : s.onFire = true) : step s = .next (s.setStatus .onFire) := if_pos hf

/-- A run takes its first step and goes on. -/
theorem run_succ_of_next {M : Host.Core} {s t : M.State} (h : M.step s = .next t) (n : Nat) : M.run (n + 1) s = M.run n t := by
  simp [Host.Core.run, h]

theorem run_of_onFire {s : State} (hf : s.onFire = true) (n : Nat) :
    Host.Core.run Sys2Proof.core (n + 1) s = .next (s.setStatus .onFire) := by
  induction n generalizing s with
  | zero => exact run_succ_of_next (M := core) (step_of_onFire hf) 0
  | succ n ih => exact (run_succ_of_next (M := core) (step_of_onFire hf) (n + 1)).trans (ih hf)

/-- What a call that finds owed cycles starts with: the status `Ok`, and one cycle paid (R121, R372). -/
def payCycle (s : State) : State := (s.setStatus .ok).setSleep (s.sleepCycles - 1)

section
variable (s : State)

@[simp] theorem payCycle_regs : (payCycle s).regs = s.regs := rfl
@[simp] theorem payCycle_pc : (payCycle s).pc = s.pc := rfl
@[simp] theorem payCycle_sp : (payCycle s).sp = s.sp := rfl
@[simp] theorem payCycle_ex : (payCycle s).ex = s.ex := rfl
@[simp] theorem payCycle_ia : (payCycle s).ia = s.ia := rfl
@[simp] theorem payCycle_mem : (payCycle s).mem = s.mem := rfl
@[simp] theorem payCycle_ien : (payCycle s).ien = s.ien := rfl
@[simp] theorem payCycle_iaq : (payCycle s).iaq = s.iaq := rfl
@[simp] theorem payCycle_queue : (payCycle s).queue = s.queue := rfl
@[simp] theorem payCycle_onFire : (payCycle s).onFire = s.onFire := rfl
@[simp] theorem payCycle_devices : (payCycle s).devices = s.devices := rfl
@[simp] theorem payCycle_sleepCycles : (payCycle s).sleepCycles = s.sleepCycles - 1 := rfl
@[simp] theorem payCycle_status : (payCycle s).status = .ok := rfl

end

/-- A call that finds owed cycles pays one and goes on to sub-steps 4 and 5 (R121). -/
theorem step_of_sleeping {s : State} (hf : s.onFire = false) (hs : s.sleepCycles ≠ 0) :
    step s = .next (finishCycle (payCycle s)) := by
  rcases cycle_cases s with ⟨hf', -⟩ | ⟨-, -, e⟩ | ⟨-, hs', -⟩
  · simp [hf] at hf'
  · exact e
  · exact absurd hs' hs

/-- A call that finds no owed cycles executes (R122, R123). -/
theorem step_of_awake {s : State} (hf : s.onFire = false) (hs : s.sleepCycles = 0) :
    step s = executeCycle (s.setStatus .ok) := by
  rcases cycle_cases s with ⟨hf', -⟩ | ⟨-, hs', -⟩ | ⟨-, -, e⟩
  · simp [hf] at hf'
  · exact absurd hs hs'
  · exact e

/-! ### The status an instruction sets -/

@[simp] theorem stepIJ_status (d : Word) (s : State) : (stepIJ d s).status = s.status := rfl

theorem conditional_status {test : Word → Word → Bool} {b : DstOperand} {a : SrcOperand} {s t : State}
    (h : conditional test b a s = .next t) : t.status = s.status := by
  rcases conditional_cases test b a s with ⟨-, e⟩ | ⟨-, pc, n, -, e⟩ | ⟨-, -, e⟩ <;> cases e.symm.trans h <;> simp

/-- An instruction of a reserved row sets the decode error, with the first word it encodes to and the address it was fetched from; no
other touches the status (R127, R372). -/
theorem exec_status {i : Instr} {s t : State} (h : exec i s = .next t) {w : Word} (hw : (encode i).head? = some w) :
    t.status = if isReserved i then .decodeError w s.pc else s.status := by
  cases i with
  | reservedBasic18 b a | reservedBasic19 b a | reservedBasic1c b a | reservedBasic1d b a
  | reservedSpecial00 a | reservedSpecial02 a | reservedSpecial03 a | reservedSpecial04 a | reservedSpecial05 a
  | reservedSpecial06 a | reservedSpecial07 a | reservedSpecial0d a | reservedSpecial0e a | reservedSpecial0f a
  | reservedSpecial13 a | reservedSpecial14 a | reservedSpecial15 a | reservedSpecial16 a | reservedSpecial17 a
  | reservedSpecial18 a | reservedSpecial19 a | reservedSpecial1a a | reservedSpecial1b a | reservedSpecial1c a
  | reservedSpecial1d a | reservedSpecial1e a | reservedSpecial1f a =>
    cases h
    cases hw
    rfl
  | ifb b a | ifc b a | ife b a | ifn b a | ifg b a | ifa b a | ifl b a | ifu b a => exact conditional_status h
  | set b a | add b a | sub b a | mul b a | mli b a | div b a | dvi b a | mod b a | mdi b a | and b a | bor b a | xor b a
  | shr b a | asr b a | shl b a | adx b a | sbx b a | sti b a | std b a
  | jsr a | int a | iag a | ias a | rfi a | iaq a | hwn a | hwq a | hwi a =>
    cases h
    simp [isReserved]

/-- The decoded instruction begins with the word it was decoded from (R90). -/
theorem encode_decode_head? (w0 w1 w2 : Word) : (encode (decode w0 w1 w2)).head? = some w0 := by
  obtain ⟨n, hn⟩ := Nat.exists_eq_add_of_le' (wordLength_bounds w0).1
  rw [encode_decode, hn, List.take_succ_cons, List.head?_cons]

/-- The status after sub-step 3 of a call that executes (R127). -/
theorem exec_fetchInstr_status {s t : State} (h : exec s.fetchInstr s = .next t) :
    t.status = if isReserved s.fetchInstr then .decodeError (s.readMem s.pc) s.pc else s.status :=
  exec_status h (encode_decode_head? _ _ _)

end Sys2Proof.Machine
end

section
/-! SUPPORT. The host's operations (spec `40_execution_cycle.md` R129 to R132, `47_floppy.md` R304): the registers a direct device call
sets, the view its device answers with, and what every operation keeps of the machine's invariant. -/

namespace Sys2Proof.Machine

/-! ### Setting registers for a direct device call -/

/-- The last value listed for a register stands. -/
@[simp] theorem setRegs_reg (args : List (Reg × Word)) (s : State) (q : Reg) :
    (setRegs s args).reg q = (args.reverse.lookup q).getD (s.reg q) := by
  induction args generalizing s with
  | nil => rfl
  | cons p args ih =>
    obtain ⟨r, v⟩ := p
    rw [setRegs, ih, State.setReg_reg, List.reverse_cons, List.lookup_append]
    cases args.reverse.lookup q with
    | some w => rfl
    | none =>
      by_cases hq : q = r
      · simp [List.lookup, hq]
      · simp [List.lookup, hq, beq_false_of_ne hq]

/-- Setting registers changes nothing else. -/
theorem setRegs_eq (args : List (Reg × Word)) (s : State) : setRegs s args = { s with regs := (setRegs s args).regs } := by
  induction args generalizing s with
  | nil => rfl
  | cons p args ih => exact ih (s.setReg p.1 p.2)

section
variable (args : List (Reg × Word)) (s : State)

@[simp] theorem setRegs_pc : (setRegs s args).pc = s.pc := by rw [setRegs_eq]
@[simp] theorem setRegs_sp : (setRegs s args).sp = s.sp := by rw [setRegs_eq]
@[simp] theorem setRegs_ex : (setRegs s args).ex = s.ex := by rw [setRegs_eq]
@[simp] theorem setRegs_ia : (setRegs s args).ia = s.ia := by rw [setRegs_eq]
@[simp] theorem setRegs_mem : (setRegs s args).mem = s.mem := by rw [setRegs_eq]
@[simp] theorem setRegs_ien : (setRegs s args).ien = s.ien := by rw [setRegs_eq]
@[simp] theorem setRegs_iaq : (setRegs s args).iaq = s.iaq := by rw [setRegs_eq]
@[simp] theorem setRegs_queue : (setRegs s args).queue = s.queue := by rw [setRegs_eq]
@[simp] theorem setRegs_sleepCycles : (setRegs s args).sleepCycles = s.sleepCycles := by rw [setRegs_eq]
@[simp] theorem setRegs_devices : (setRegs s args).devices = s.devices := by rw [setRegs_eq]
@[simp] theorem setRegs_status : (setRegs s args).status = s.status := by rw [setRegs_eq]

end

/-! ### A call of an attached device -/

@[simp] theorem State.enqueueAll_view (s : State) (ms : List Word) : (s.enqueueAll ms).view = s.view := by simp [State.view]

section
variable {n : Nat} {d : Device} {s : State} (h : s.devices[n]? = some d)
include h

theorem callDevice_of_present :
    callDevice n s = ((s.withView (deviceInterrupt d s.view).2.1).setDevices
      (s.devices.set n (deviceInterrupt d s.view).1)).enqueueAll (deviceInterrupt d s.view).2.2 := by
  simp [callDevice, h]

/-- The registers and memory are left as the device's call leaves its view (R283). -/
theorem callDevice_view : (callDevice n s).view = (deviceInterrupt d s.view).2.1 := by
  rw [callDevice_of_present h, State.enqueueAll_view]
  rfl

/-- The called device is replaced by what its call makes of it (R282). -/
theorem callDevice_devices : (callDevice n s).devices = s.devices.set n (deviceInterrupt d s.view).1 := by
  rw [callDevice_of_present h, State.enqueueAll_devices, State.setDevices_devices]

/-- The messages a device's call returns are enqueued (R285). -/
theorem callDevice_enqueued : Enqueued (deviceInterrupt d s.view).2.2 s (callDevice n s) := by
  rw [callDevice_of_present h]
  refine State.enqueueAll_congr ?_ ?_ _ <;> rfl

end

/-! ### The invariant over the host's operations -/

/-- Every device is in order when it is created (R289). -/
theorem NewDevice.create_ok (d : NewDevice) : DeviceOk d.create := by
  cases d with
  | floppy => simp [NewDevice.create, DeviceOk, FloppyOk, Floppy.fresh]
  | clock => exact .inr ⟨rfl, rfl, rfl⟩
  | display => exact ⟨rfl, rfl⟩
  | external id kind priv => trivial

theorem floppyAt_eq_some {n : Nat} {s : State} {f : Floppy} (h : floppyAt n s = some f) : s.devices[n]? = some (.floppy f) := by
  unfold floppyAt at h
  split at h
  · rename_i f' hf
    cases h
    exact hf
  · cases h

/-- Inserted media is ready, and its image lies within the geometry (R304, log entry 14). -/
theorem FloppyOk.insert {f f' : Floppy} {img : Image} {wp : Bool} {msgs : List Word} (h : FloppyOk f)
    (hi : floppyInsert f img wp = some (f', msgs)) : FloppyOk f' := by
  obtain ⟨-, -, htrack, -, heject, hbroken⟩ := h
  unfold floppyInsert at hi
  split at hi
  · rename_i hready
    obtain ⟨-, himg⟩ := hready
    cases hi
    refine ⟨?_, fun m hm => ?_, htrack, ?_, heject, hbroken⟩
    · cases wp <;> exact iff_of_false nofun nofun
    · cases hm
      exact himg
    · cases wp <;> exact nofun
  · cases hi

/-- After an eject there is neither media nor image (R304). -/
theorem FloppyOk.eject {f f' : Floppy} {msgs : List Word} {img : Option Image} (h : FloppyOk f)
    (he : floppyEject f = some (f', msgs, img)) : FloppyOk f' := by
  obtain ⟨-, -, htrack, -, heject, hbroken⟩ := h
  unfold floppyEject at he
  split at he
  · cases he
  · cases he
    exact ⟨iff_of_true rfl rfl, nofun, htrack, nofun, heject, hbroken⟩

theorem BusOk.attach {s : State} (h : BusOk s) {d : Device} (hd : DeviceOk d) (hlt : s.devices.length < params.maxDevices) :
    BusOk (s.setDevices (s.devices ++ [d])) := by
  refine ⟨h.queue, by simpa using hlt, fun e he => ?_⟩
  rcases List.mem_append.1 he with he | he
  · exact h.devices e he
  · exact List.mem_singleton.1 he ▸ hd

theorem State.Inv.of_busOk {s : State} (hmem : Memory.wf s.mem) (h : BusOk s) : s.Inv := ⟨hmem, h.queue, h.count, h.devices⟩

section
variable {s : State} (h : s.Inv)
include h

/-- A floppy controller that is put back in order, and the messages it returns, keep the invariant. -/
theorem State.Inv.setFloppy (n : Nat) {f : Floppy} (hf : FloppyOk f) (msgs : List Word) :
    ((s.setDevices (s.devices.set n (.floppy f))).enqueueAll msgs).Inv := by
  have hset : BusOk (s.setDevices (s.devices.set n (.floppy f))) := h.busOk.set n hf
  refine .of_busOk ?_ (busOk_busInvariant.enqueueAll msgs hset)
  rw [State.enqueueAll_mem]
  exact h.mem

theorem State.Inv.floppyAt {n : Nat} {f : Floppy} (hf : floppyAt n s = some f) : FloppyOk f :=
  h.devices _ (List.mem_of_getElem? (floppyAt_eq_some hf))

theorem State.Inv.hostAttach (d : NewDevice) : (hostAttach d s).1.Inv := by
  rcases hostAttach_cases d s with ⟨-, e⟩ | ⟨hlt, e⟩ <;> rw [e]
  · exact h
  · exact .of_busOk h.mem (h.busOk.attach d.create_ok hlt)

theorem State.Inv.hostFlash (ws : List Word) : (hostFlash ws s).1.Inv := by
  rcases hostFlash_cases ws s with ⟨hlen, e⟩ | ⟨-, e⟩ <;> rw [e]
  · exact .of_busOk (Cells.wf_writeBlock ws h.mem (by omega)) ⟨h.queue, h.count, h.devices⟩
  · exact h

theorem State.Inv.hostReset : (hostReset s).Inv where
  mem := State.reset_mem_wf
  queue := Nat.zero_le _
  count := h.count
  devices := h.devices

theorem State.Inv.hostInterrupt (m : Word) : (hostInterrupt m s).Inv :=
  .of_busOk ((s.enqueue_mem m).symm ▸ h.mem) (h.busOk.enqueue m)

theorem State.Inv.hostInsert (n : Nat) (img : Image) (wp : Bool) : (hostInsert n img wp s).1.Inv := by
  rcases hostInsert_cases n img wp s with e | ⟨f, f', msgs, hf, hi, e⟩ <;> rw [e]
  · exact h
  · exact h.setFloppy n ((h.floppyAt hf).insert hi) msgs

theorem State.Inv.hostEject (n : Nat) : (hostEject n s).1.Inv := by
  rcases hostEject_cases n s with e | ⟨f, f', msgs, img, hf, he, e⟩ <;> rw [e]
  · exact h
  · exact h.setFloppy n ((h.floppyAt hf).eject he) msgs

theorem State.Inv.hostCallDevice (n : Nat) (args : List (Reg × Word)) : (hostCallDevice n args s).1.Inv := by
  rcases hostCallDevice_cases n args s with ⟨-, e⟩ | ⟨-, e⟩ <;> rw [e]
  · have hbus : BusOk (setRegs s args) := busOk_busInvariant.sameBus h.busOk ⟨by simp, by simp, by simp⟩
    have hmem : Memory.wf (setRegs s args).mem := (setRegs_mem args s).symm ▸ h.mem
    exact .of_busOk (callDevice_mem_wf n hmem) (busOk_busInvariant.callDevice n hbus)
  · exact h

end

end Sys2Proof.Machine
end

section
/-! SUPPORT. The statements about the execution cycle and the host's operations, each settled from the lemmas above. -/

namespace Sys2Proof.Machine

/-- Settles O6: the call is `finishCycle`, which after delivery leaves the registers, memory, PC, SP and the flags alone. -/
theorem sleepingCallDecodesNothing : Obligations.SleepingCallDecodesNothing := by
  intro s n hf hs
  obtain ⟨hregs, hmem, ⟨hpc, hsp, hex⟩, hia, hien, hiaq⟩ := finishCycle_frame (payCycle s)
  refine ⟨finishCycle (payCycle s), step_of_sleeping hf (by omega), by simp [hs], by simpa using hex, by simpa using hia,
    by simpa using hien, finishCycle_status (payCycle s), fun hnone => ?_, fun m rest hq hien' hia' hiaq' => ?_⟩
  · have hdel : (payCycle s).deliver = payCycle s := State.deliver_eq_self hnone
    rw [hdel] at hregs hmem hpc hsp hiaq
    exact ⟨hregs, hmem, hpc, hsp, hiaq⟩
  · have hdel : (payCycle s).deliver = (payCycle s).takeInterrupt m rest :=
      State.deliver_eq_takeInterrupt hq hf hien' hia' hiaq'
    rw [hdel] at hregs hmem hpc hsp hiaq
    exact ⟨fun r => (hregs r).trans (State.takeInterrupt_reg _ m rest r), hpc, hsp.trans (State.takeInterrupt_sp _ m rest),
      hiaq, fun a => (hmem a).trans (State.takeInterrupt_readMem _ m rest a)⟩

/-- Settles O7: without a fire every device moves by its own `cycle()`, behind what delivery left in the queue. -/
theorem sleepingCallStepsEveryDevice : Obligations.SleepingCallStepsEveryDevice := by
  refine ⟨fun d => ?_, fun s t hf hs h => ?_⟩
  · cases d with
    | clock c => exact deviceCycle_clock_messages c
    | floppy f => rfl
    | display p => rfl
    | external id kind msg priv => rfl
  · cases (step_of_sleeping hf hs).symm.trans h
    refine ⟨rfl, fun ht => ?_⟩
    obtain ⟨hdevices, hq⟩ := finishCycle_of_not_onFire ht
    refine ⟨?_, by simp [hdevices], fun n d hd => ?_⟩
    · have hdel : (payCycle s).deliver.queue = s.deliver.queue := by
        rw [State.deliver_queue, State.deliver_queue]
        rfl
      rw [hq, hdel, payCycle_devices]
    · rw [hdevices, payCycle_devices, List.getElem?_map, hd]
      refine congrArg some ?_
      cases d with
      | clock c => exact deviceCycle_clock c
      | floppy f => rfl
      | display p => rfl
      | external id kind msg priv => rfl

/-- Settles O8: the frame lemmas of `cycleDevices`, and the two ways sub-step 5 ends. -/
theorem deviceSteppingInOrder : Obligations.DeviceSteppingInOrder := by
  intro s
  refine ⟨cycleDevices_reg s, cycleDevices_readMem s, ⟨cycleDevices_pc s, cycleDevices_sp s, cycleDevices_ex s⟩,
    cycleDevices_ia s, cycleDevices_ien s, cycleDevices_iaq s, cycleDevices_sleepCycles s, cycleDevices_status s,
    cycleDevices_of_onFire, cycleDevices_of_not_onFire, fun hf hfire => ?_⟩
  cases cycleDevices_turns hf with
  | quiet hf' => simp [hfire] at hf'
  | @fire k d pre m rest h => exact ⟨k, d, pre, m, rest, h.device, h.messages, h.queue, h.full, h.devices⟩

/-- Settles O9: a sleeping call keeps the Ok it starts with, an executing one the status its instruction leaves, unless on fire. -/
theorem statusOfEveryCall : Obligations.StatusOfEveryCall := by
  intro s t h
  cases hf : s.onFire with
  | true =>
    cases (step_of_onFire hf).symm.trans h
    simp [hf]
  | false =>
    by_cases hs : s.sleepCycles = 0
    · obtain ⟨t', hexec, rfl⟩ := executeCycle_next ((step_of_awake hf hs).symm.trans h)
      rw [finishCycle_status, exec_fetchInstr_status hexec]
      simp only [hs, true_and]
      rfl
    · cases (step_of_sleeping hf hs).symm.trans h
      simp [finishCycle_status, hs]

/-- Settles O10, by induction on the number of calls. -/
theorem onFireCallsChangeNothing : Obligations.OnFireCallsChangeNothing := fun _ n hf => run_of_onFire hf n

/-- Settles O11: on fire the rest of the call settles the status only. -/
theorem catchingFireEndsTheCall : Obligations.CatchingFireEndsTheCall := by
  intro s t hf hs hexec ht
  have hfetch : (s.setStatus .ok).fetchInstr = s.fetchInstr := rfl
  rw [step_of_awake hf hs, executeCycle, hfetch, hexec]
  exact congrArg Host.Outcome.next (finishCycle_of_onFire ht)

/-- Settles O49: each operation's own cases; a direct call hands the device the view of the state with the registers set. -/
theorem hostResetInterruptAttach : Obligations.HostResetInterruptAttach := by
  intro s
  refine ⟨?_, fun m => rfl, fun d hlt => ?_, fun d hle => ?_, fun n args d hd => ?_, fun n args hle => ?_⟩
  · have hregs (r : Reg) : (hostOp .reset s).1.reg r = 0 := by cases r <;> rfl
    exact ⟨hregs, rfl, rfl, rfl, rfl, fun _ => rfl, rfl, rfl, rfl, rfl, rfl, rfl⟩
  · exact if_neg (Nat.not_le_of_lt hlt)
  · exact if_pos hle
  · have hpresent : (setRegs s args).devices[n]? = some d := by rwa [setRegs_devices]
    obtain ⟨hlt, -⟩ := List.getElem?_eq_some_iff.1 hd
    obtain ⟨hqueue, hfire⟩ := callDevice_enqueued hpresent
    obtain ⟨hqueue', hfire'⟩ :=
      State.enqueueAll_congr (setRegs_queue args s) (setRegs_onFire args s) (deviceInterrupt d (setRegs s args).view).2.2
    exact ⟨(setRegs s args).view, callDevice n (setRegs s args), setRegs_reg args s, setRegs_pc args s, setRegs_sp args s,
      setRegs_ex args s, setRegs_ia args s, setRegs_mem args s, if_pos hlt, callDevice_view hpresent,
      by rw [callDevice_devices hpresent, setRegs_devices], ⟨hqueue.trans hqueue', hfire.trans hfire'⟩, by simp, by simp,
      by simp, by simp⟩
  · exact if_neg (Nat.not_lt_of_le hle)

/-- Settles O50, from what a block write leaves at every address. -/
theorem flashCopiesOrRejects : Obligations.FlashCopiesOrRejects := by
  intro ws s
  rcases hostFlash_cases ws s with ⟨hle, e⟩ | ⟨hlt, e⟩
  · have hop : hostOp (.flash ws) s = (s.setMem (Cells.writeBlock s.mem 0 ws), .done) := e
    refine ⟨fun _ => ?_, fun hlt => absurd hle (Nat.not_le_of_lt hlt)⟩
    rw [hop]
    have hread (n : Word) : (s.setMem (Cells.writeBlock s.mem 0 ws)).readMem n =
        if n.toNat < ws.length then ws.getD n.toNat 0 else s.readMem n := by
      simpa [State.readMem, Memory.read] using Cells.read_writeBlock ws s.mem 0 n.toNat
    exact ⟨rfl, hread, fun _ => rfl, ⟨rfl, rfl, rfl⟩, ⟨rfl, rfl, rfl, rfl, rfl, rfl, rfl⟩, rfl⟩
  · exact ⟨fun hle => absurd hle (Nat.not_le_of_lt hlt), fun _ => e⟩

/-- Settles O54, operation by operation. -/
theorem hostOpsKeepInvariant : Obligations.HostOpsKeepInvariant := by
  intro op s h
  cases op with
  | attach d => exact h.hostAttach d
  | flash ws => exact h.hostFlash ws
  | reset => exact h.hostReset
  | interrupt m => exact h.hostInterrupt m
  | insert n img wp => exact h.hostInsert n img wp
  | eject n => exact h.hostEject n
  | callDevice n args => exact h.hostCallDevice n args

/-- Settles O59: the device is appended as created, and `reset()` keeps the devices. -/
theorem attachedDeviceIsInItsInitialState : Obligations.AttachedDeviceIsInItsInitialState := by
  intro s id kind priv hlt p hp
  have hattach : (hostOp (.attach p.1) s).1.devices = s.devices ++ [p.1.create] := by
    have hop : hostOp (.attach p.1) s = (s.setDevices (s.devices ++ [p.1.create]), .attached s.devices.length) :=
      if_neg (Nat.not_le_of_lt hlt)
    rw [hop, State.setDevices_devices]
  have hcreate : p.1.create = p.2 := by
    simp only [List.mem_cons, List.not_mem_nil, or_false] at hp
    rcases hp with rfl | rfl | rfl | rfl <;> rfl
  have hreset : (hostOp .reset (hostOp (.attach p.1) s).1).1.devices = (hostOp (.attach p.1) s).1.devices := rfl
  rw [hreset, hattach, hcreate]
  exact ⟨rfl, rfl⟩

end Sys2Proof.Machine
end

section
/-! SUPPORT. What operands a and b read and where they write (spec `41_operands.md` R151, R154 to R166): the location and the value of
every form in terms of the state before the instruction, and what a write through a location leaves. -/

namespace Sys2Proof.Machine

section
variable (b : DstOperand) (a : SrcOperand) (s : State)

/-! ### Locations -/

/-- Consuming the first word moves no location of operand a: a location depends on the registers and SP, never on PC. -/
theorem srcLoc_eq_locA : srcLoc a s = locA a s := by
  cases a with
  | com o => cases o <;> rfl
  | pop => rfl
  | short v => rfl

/-- Operand b sees SP after a POP in operand a, and otherwise the state before the instruction (R151, R158). -/
theorem dstLoc_eq_locB : dstLoc b a s = locB b (s.setSp (s.sp + if a = .pop then 1 else 0)) := by
  have hreg (r : Reg) : (afterSrc a s).reg r = s.reg r := afterSrc_reg a s r
  have hsp : (afterSrc a s).sp = s.sp + if a = .pop then 1 else 0 := by rw [afterSrc_sp, popBy_eq]
  cases b with
  | com o => cases o <;> simp only [dstLoc, locB, locOf, hreg, hsp, State.setSp_reg, State.setSp_sp]
  | push => simp only [dstLoc, locB, hsp, State.setSp_sp]

variable {b a s}

/-- Each listed destination form resolves to the location listed with it. -/
theorem dstLoc_of_mem_destinationForms {r : Reg} {n : Word} {l : Loc} (h : (b, l) ∈ destinationForms a r n s) :
    dstLoc b a s = l := by
  rw [dstLoc_eq_locB]
  simp only [destinationForms, List.mem_cons, Prod.mk.injEq, List.not_mem_nil, or_false] at h
  rcases h with ⟨rfl, rfl⟩ | ⟨rfl, rfl⟩ | ⟨rfl, rfl⟩ | ⟨rfl, rfl⟩ | ⟨rfl, rfl⟩ | ⟨rfl, rfl⟩ | ⟨rfl, rfl⟩ | ⟨rfl, rfl⟩ |
    ⟨rfl, rfl⟩ | ⟨rfl, rfl⟩ | ⟨rfl, rfl⟩ <;> rfl

/-! ### Values -/

/-- Resolution moves SP and PC only, so at any other location operand a reads what stood there before the instruction. -/
theorem srcVal_eq_readLoc (hsp : locA a s ≠ .sp) (hpc : locA a s ≠ .pc) : srcVal b a s = s.readLoc (locA a s) := by
  rw [srcVal, srcLoc_eq_locA]
  cases hl : locA a s with
  | reg r => exact resolved_reg a b s r
  | mem n => exact resolved_readMem a b s n
  | sp => exact absurd hl hsp
  | pc => exact absurd hl hpc
  | ex => exact resolved_ex a b s
  | lit v => rfl

/-- SP as a source is SP after a PUSH in operand b (R151, R161). -/
theorem srcVal_sp : srcVal b (.com .sp) s = if b = .push then s.sp - 1 else s.sp := by
  have hread : srcVal b (.com .sp) s = (resolved b (.com .sp) s).sp := rfl
  rw [hread, resolved_sp, pushBy_eq]
  split <;> simp [popBy]

/-- PC as a source is the address of the next instruction (R151, R161). -/
theorem srcVal_pc : srcVal b (.com .pc) s = s.pc + BitVec.ofNat 16 (1 + (dstWords b).length) :=
  resolved_pc_eq_length b (.com .pc) s

/-- Each listed source form reads the value listed with it. -/
theorem srcVal_of_mem_sourceForms {q : Reg} {k v : Word} (h : (a, v) ∈ sourceForms b q k s) : srcVal b a s = v := by
  simp only [sourceForms, List.mem_cons, Prod.mk.injEq, List.not_mem_nil, or_false] at h
  rcases h with ⟨rfl, rfl⟩ | ⟨rfl, rfl⟩ | ⟨rfl, rfl⟩ | ⟨rfl, rfl⟩ | ⟨rfl, rfl⟩ | ⟨rfl, rfl⟩ | ⟨rfl, rfl⟩ | ⟨rfl, rfl⟩ |
    ⟨rfl, rfl⟩ | ⟨rfl, rfl⟩ | ⟨rfl, rfl⟩ | ⟨rfl, rfl⟩
  iterate 6 exact srcVal_eq_readLoc nofun nofun
  · exact srcVal_sp
  · exact srcVal_pc
  all_goals exact srcVal_eq_readLoc nofun nofun

end

/-! ### Writes -/

section
variable (base : Nat) (b : DstOperand) (a : SrcOperand) (s : State) (res : Word) (e : Option Word)

/-- A basic instruction that writes changes its destination and EX only (R153, R189). -/
theorem writeResult_holdsOnly : HoldsOnly (dstLoc b a s) res e (resolved b a s) (writeResult base b a s res e) := by
  simp [HoldsOnly]

theorem writeResult_sameControl : SameControl s (writeResult base b a s res e) := by simp [SameControl]

/-- IAG and HWN change their operand only (R153, R254, R258). -/
theorem writeArg_holdsOnly (n : Nat) :
    HoldsOnly (srcLoc a s) res none (afterSrc a s) (((afterSrc a s).writeLoc (srcLoc a s) res).setSleep n) := by
  simp [HoldsOnly]

theorem writeArg_sameControl (n : Nat) : SameControl s (((afterSrc a s).writeLoc (srcLoc a s) res).setSleep n) := by
  simp [SameControl]

end

/-- What is written to a literal is dropped: only EX can change (R166). -/
theorem HoldsOnly.of_lit {n v : Word} {e : Option Word} {s t : State} (h : HoldsOnly (.lit n) v e s t) :
    SameRegs s t ∧ SameMemory s t ∧ t.pc = s.pc ∧ t.sp = s.sp ∧ t.ex = e.getD s.ex := by
  obtain ⟨hreg, hpc, hsp, hex, hmem⟩ := h
  exact ⟨fun r => by simpa using hreg r, fun m => by simpa using hmem m, by simpa using hpc, by simpa using hsp, by simpa using hex⟩

/-- A basic instruction that writes, with a literal destination; where the opcode writes no EX, no EX is given. -/
theorem writeResult_lit {i : Instr} {base : Nat} {a : SrcOperand} {n : Word} {s : State} {res : Word} {e : Option Word}
    (hi : exec i s = .next (writeResult base (.com (.lit n)) a s res e)) (he : writesEx i = false → e = none) :
    ∃ t, exec i s = .next t ∧ SameRegs s t ∧ SameMemory s t ∧ t.pc = (resolved (.com (.lit n)) a s).pc ∧
      t.sp = (resolved (.com (.lit n)) a s).sp ∧ (writesEx i = false → t.ex = s.ex) ∧ SameControl s t ∧
      t.sleepCycles = base + costA a + 1 - 1 := by
  have hlit : HoldsOnly (.lit n) res e (resolved (.com (.lit n)) a s) (writeResult base (.com (.lit n)) a s res e) :=
    writeResult_holdsOnly base (.com (.lit n)) a s res e
  obtain ⟨hreg, hmem, hpc, hsp, hex⟩ := hlit.of_lit
  refine ⟨_, hi, fun r => by rw [hreg, resolved_reg], fun m => by rw [hmem, resolved_readMem], hpc, hsp, fun hw => ?_,
    writeResult_sameControl .., rfl⟩
  rw [hex, he hw, resolved_ex]
  rfl

/-- A special instruction that writes its operand, with a literal operand. -/
theorem writeArg_lit {i : Instr} {a : SrcOperand} {n : Word} {c : Nat} {s : State} {v : Word}
    (hi : exec i s = .next (((afterSrc a s).writeLoc (srcLoc a s) v).setSleep c)) (ha : srcLoc a s = .lit n) :
    ∃ t, exec i s = .next t ∧ SameRegs s t ∧ SameMemory s t ∧ t.pc = (afterSrc a s).pc ∧ t.sp = (afterSrc a s).sp ∧
      t.ex = s.ex ∧ SameControl s t ∧ t.sleepCycles = c := by
  have hlit := writeArg_holdsOnly a s v c
  have hcontrol := writeArg_sameControl a s v c
  rw [ha] at hi hlit hcontrol
  obtain ⟨hreg, hmem, hpc, hsp, hex⟩ := hlit.of_lit
  refine ⟨_, hi, fun r => by rw [hreg, afterSrc_reg], fun m => by rw [hmem, afterSrc_readMem], hpc, hsp, ?_, hcontrol, rfl⟩
  rw [hex, afterSrc_ex]
  rfl

/-- The carry of a sum of two words, over the naturals (R181). -/
theorem carryEx_addSum (b a : Word) : carryEx (addSum b a) = if b.toNat + a.toNat > 65535 then 1 else 0 := by
  have hsum : addSum b a > 65535 ↔ b.toNat + a.toNat > 65535 := by simp only [addSum, u, Int.ofNat_eq_natCast]; omega
  simp only [carryEx, hsum]

end Sys2Proof.Machine
end

section
/-! SUPPORT. The statements about operand forms, each settled from the lemmas above. -/

namespace Sys2Proof.Machine

/-- Settles O15: the two tables of forms give the location and the value, and SET writes nothing but them. -/
theorem destinationOperandForms : Obligations.DestinationOperandForms := by
  intro s r q n k v b a l hb ha
  have hwrite := writeResult_holdsOnly 1 b a s (srcVal b a s) none
  rw [dstLoc_of_mem_destinationForms hb] at hwrite
  obtain ⟨hreg, hpc, hsp, hex, hmem⟩ := hwrite
  have hval : srcVal b a s = v := srcVal_of_mem_sourceForms ha
  refine ⟨_, rfl, fun p => ?_, fun m => ?_, ?_, ?_, ?_, writeResult_sameControl ..⟩
  · rw [hreg, hval, resolved_reg]
  · rw [hmem, hval, resolved_readMem]
  · rw [hsp, hval, resolved_sp, popBy_eq, pushBy_eq]
  · rw [hpc, hval, resolved_pc_eq_length]
  · rw [hex, hval, resolved_ex]
    rfl

/-- Settles O14: the case of O15 with register C as operand b. -/
theorem sourceOperandForms : Obligations.SourceOperandForms := by
  intro s r n p hp
  obtain ⟨t, ht, hreg, hmem, -, -, hex, -⟩ :=
    destinationOperandForms s .c r n n p.2 (.com (.reg .c)) p.1 (.reg .c) List.mem_cons_self hp
  exact ⟨t, ht, fun q => by simpa [eq_comm] using hreg q, fun m => by simpa using hmem m, by simpa using hex⟩

/-- Settles O16: each opcode's meaning is a `writeResult` to the literal, or a write to a literal operand. -/
theorem literalDestinationDropsWrite : Obligations.LiteralDestinationDropsWrite := by
  intro a n s
  refine ⟨?_, ⟨_, rfl, ?_⟩, ?_⟩
  · simp only [List.forall_mem_cons, List.not_mem_nil, false_implies, implies_true, and_true]
    exact ⟨writeResult_lit rfl fun _ => rfl, writeResult_lit rfl nofun, writeResult_lit rfl nofun, writeResult_lit rfl nofun,
      writeResult_lit rfl nofun, writeResult_lit rfl nofun, writeResult_lit rfl nofun, writeResult_lit rfl fun _ => rfl,
      writeResult_lit rfl fun _ => rfl, writeResult_lit rfl fun _ => rfl, writeResult_lit rfl fun _ => rfl,
      writeResult_lit rfl fun _ => rfl, writeResult_lit rfl nofun, writeResult_lit rfl nofun, writeResult_lit rfl nofun,
      writeResult_lit rfl nofun, writeResult_lit rfl nofun⟩
  · exact carryEx_addSum n (srcVal (.com (.lit n)) a s)
  · simp only [List.forall_mem_cons, List.not_mem_nil, false_implies, implies_true, and_true]
    exact ⟨⟨writeArg_lit rfl rfl, writeArg_lit rfl rfl⟩, writeArg_lit rfl rfl, writeArg_lit rfl rfl⟩

end Sys2Proof.Machine
end

section
/-! SUPPORT. Data movement and arithmetic (spec `42_arithmetic.md` R180 to R194): each instruction of the family as one write of its
result and of its EX, and the results and EX values of `Flags` in the words' own arithmetic. -/

namespace Sys2Proof.Machine

/-! ### One write -/

/-- A basic instruction whose meaning is a `writeResult` writes that result and that EX, and nothing else. -/
theorem WritesResult.of_exec {o : BitVec 5} {i : Instr} {base : Nat} {b : DstOperand} {a : SrcOperand} {s : State} {res : Word}
    {e : Option Word} (hcode : encode i = encodeBasic o b a) (hexec : exec i s = .next (writeResult base b a s res e)) :
    WritesResult o i base b a s res e :=
  ⟨hcode, _, hexec, writeResult_holdsOnly base b a s res e, writeResult_sameControl base b a s res e, rfl⟩

section
variable (b : DstOperand) (a : SrcOperand) (s : State)

theorem set_writesResult : WritesResult 0x01 (.set b a) 1 b a s (srcVal b a s) none := .of_exec rfl rfl

theorem add_writesResult : WritesResult 0x02 (.add b a) 2 b a s (word (addSum (dstVal b a s) (srcVal b a s)))
    (some (carryEx (addSum (dstVal b a s) (srcVal b a s)))) := .of_exec rfl rfl

theorem sub_writesResult : WritesResult 0x03 (.sub b a) 2 b a s (word (subDiff (dstVal b a s) (srcVal b a s)))
    (some (borrowEx (subDiff (dstVal b a s) (srcVal b a s)))) := .of_exec rfl rfl

theorem mul_writesResult : WritesResult 0x04 (.mul b a) 2 b a s (word (mulProduct (dstVal b a s) (srcVal b a s)))
    (some (highWord (mulProduct (dstVal b a s) (srcVal b a s)))) := .of_exec rfl rfl

theorem mli_writesResult : WritesResult 0x05 (.mli b a) 2 b a s (word (mliProduct (dstVal b a s) (srcVal b a s)))
    (some (highWord (mliProduct (dstVal b a s) (srcVal b a s)))) := .of_exec rfl rfl

theorem div_writesResult : WritesResult 0x06 (.div b a) 3 b a s (divQuot (dstVal b a s) (srcVal b a s))
    (some (divEx (dstVal b a s) (srcVal b a s))) := .of_exec rfl rfl

theorem dvi_writesResult : WritesResult 0x07 (.dvi b a) 3 b a s (dviQuot (dstVal b a s) (srcVal b a s))
    (some (dviEx (dstVal b a s) (srcVal b a s))) := .of_exec rfl rfl

theorem mod_writesResult : WritesResult 0x08 (.mod b a) 3 b a s (modRem (dstVal b a s) (srcVal b a s)) none := .of_exec rfl rfl

theorem mdi_writesResult : WritesResult 0x09 (.mdi b a) 3 b a s (mdiRem (dstVal b a s) (srcVal b a s)) none := .of_exec rfl rfl

/-- ADX reads EX as it was before the instruction: resolving operands leaves it (R150, R190). -/
theorem adx_writesResult : WritesResult 0x1a (.adx b a) 3 b a s (word (adxSum (dstVal b a s) (srcVal b a s) s.ex))
    (some (carryEx (adxSum (dstVal b a s) (srcVal b a s) s.ex))) := by
  rw [← resolved_ex a b s]
  exact .of_exec rfl rfl

/-- SBX reads EX as it was before the instruction (R150, R191). -/
theorem sbx_writesResult : WritesResult 0x1b (.sbx b a) 3 b a s (word (sbxDiff (dstVal b a s) (srcVal b a s) s.ex))
    (some (sbxEx (sbxDiff (dstVal b a s) (srcVal b a s) s.ex))) := by
  rw [← resolved_ex a b s]
  exact .of_exec rfl rfl

end

/-! ### Results and EX values

The model computes over the integers and reduces at the end (R11). A product, quotient or remainder of unsigned words is a natural
number; a difference, and a sum with EX, is reduced term by term. -/

section
variable (b a x : Word)

theorem word_addSum : word (addSum b a) = BitVec.ofNat 16 (b.toNat + a.toNat) := word_natCast (b.toNat + a.toNat)

theorem word_subDiff : word (subDiff b a) = b - a := by rw [subDiff, word_sub, word_u, word_u]

/-- The borrow of a difference of two words, over the naturals (R182). -/
theorem borrowEx_subDiff : borrowEx (subDiff b a) = if b.toNat < a.toNat then 0xFFFF else 0 := by
  have hborrow : subDiff b a < 0 ↔ b.toNat < a.toNat := by simp only [subDiff, u, Int.ofNat_eq_natCast]; omega
  simp only [borrowEx, hborrow]

theorem word_mulProduct : word (mulProduct b a) = BitVec.ofNat 16 (b.toNat * a.toNat) := word_natCast (b.toNat * a.toNat)

theorem highWord_mulProduct : highWord (mulProduct b a) = BitVec.ofNat 16 (b.toNat * a.toNat / 65536) := by
  rw [highWord_eq]
  exact word_natCast (b.toNat * a.toNat / 65536)

theorem highWord_mliProduct : highWord (mliProduct b a) = BitVec.ofInt 16 (b.toInt * a.toInt / 65536) := highWord_eq _

theorem word_adxSum : word (adxSum b a x) = b + a + x := by rw [adxSum, word_add, word_add, word_u, word_u, word_u]

/-- The carry of a sum of three words, over the naturals (R190). -/
theorem carryEx_adxSum : carryEx (adxSum b a x) = if b.toNat + a.toNat + x.toNat > 65535 then 1 else 0 := by
  have hcarry : adxSum b a x > 65535 ↔ b.toNat + a.toNat + x.toNat > 65535 := by
    simp only [adxSum, u, Int.ofNat_eq_natCast]; omega
  simp only [carryEx, hcarry]

theorem word_sbxDiff : word (sbxDiff b a x) = b - a + x := by rw [sbxDiff, word_add, word_sub, word_u, word_u, word_u]

/-- Underflow and overflow of SBX, over the naturals (R191). -/
theorem sbxEx_sbxDiff : sbxEx (sbxDiff b a x) =
    if b.toNat + x.toNat < a.toNat then 0xFFFF else if b.toNat + x.toNat > 65535 + a.toNat then 1 else 0 := by
  have hunder : sbxDiff b a x < 0 ↔ b.toNat + x.toNat < a.toNat := by simp only [sbxDiff, u, Int.ofNat_eq_natCast]; omega
  have hover : sbxDiff b a x > 65535 ↔ b.toNat + x.toNat > 65535 + a.toNat := by
    simp only [sbxDiff, u, Int.ofNat_eq_natCast]; omega
  simp only [sbxEx, hunder, hover]

/-! Division by zero gives zero (R194). -/

theorem divQuot_zero : divQuot b 0 = 0 := rfl
theorem divEx_zero : divEx b 0 = 0 := rfl
theorem dviQuot_zero : dviQuot b 0 = 0 := rfl
theorem dviEx_zero : dviEx b 0 = 0 := rfl
theorem modRem_zero : modRem b 0 = 0 := rfl
theorem mdiRem_zero : mdiRem b 0 = 0 := rfl

/-! Division by anything else (R185 to R188). -/

variable {a}

theorem divQuot_of_ne_zero (h : a ≠ 0) : divQuot b a = BitVec.ofNat 16 (b.toNat / a.toNat) := by
  rw [divQuot, if_neg h]
  exact word_natCast (b.toNat / a.toNat)

theorem divEx_of_ne_zero (h : a ≠ 0) : divEx b a = BitVec.ofNat 16 (b.toNat * 65536 / a.toNat) := by
  rw [divEx, if_neg h]
  exact word_natCast (b.toNat * 65536 / a.toNat)

theorem dviQuot_of_ne_zero (h : a ≠ 0) : dviQuot b a = BitVec.ofInt 16 (b.toInt.tdiv a.toInt) := if_neg h

theorem dviEx_of_ne_zero (h : a ≠ 0) : dviEx b a = BitVec.ofInt 16 ((b.toInt * 65536).tdiv a.toInt) := if_neg h

theorem modRem_of_ne_zero (h : a ≠ 0) : modRem b a = BitVec.ofNat 16 (b.toNat % a.toNat) := by
  rw [modRem, if_neg h]
  exact word_natCast (b.toNat % a.toNat)

/-- What is left of the dividend after the truncated quotient is the truncated remainder (R188). -/
theorem mdiRem_of_ne_zero (h : a ≠ 0) : mdiRem b a = BitVec.ofInt 16 (b.toInt.tmod a.toInt) := by
  rw [mdiRem, if_neg h, Int.tmod_def]
  rfl

end

/-! ### Stepping I and J -/

section
variable (d : Word) (s : State)

@[simp] theorem stepIJ_pc : (stepIJ d s).pc = s.pc := rfl
@[simp] theorem stepIJ_sp : (stepIJ d s).sp = s.sp := rfl
@[simp] theorem stepIJ_sleepCycles : (stepIJ d s).sleepCycles = s.sleepCycles := rfl
@[simp] theorem stepIJ_readMem (n : Word) : (stepIJ d s).readMem n = s.readMem n := rfl

/-- I and J move by `d`, the other registers stay (R192, R193). -/
@[simp] theorem stepIJ_reg (r : Reg) : (stepIJ d s).reg r = s.reg r + if r = .i ∨ r = .j then d else 0 := by
  cases r <;> simp [stepIJ]

end

end Sys2Proof.Machine
end

section
/-! SUPPORT. The statements about data movement and arithmetic, each settled from the lemmas above. -/

namespace Sys2Proof.Machine

/-- Settles O17: SET is the write of operand a's value, with no EX beside it. -/
theorem setResult : Obligations.SetResult := set_writesResult

/-- Settles O18: the exact sum and difference, reduced. -/
theorem addSubResult : Obligations.AddSubResult := by
  intro b a s
  rw [← word_addSum, ← carryEx_addSum, ← word_subDiff, ← borrowEx_subDiff]
  exact ⟨add_writesResult b a s, sub_writesResult b a s⟩

/-- Settles O19: the exact product, reduced, and its floor division by 65536. -/
theorem mulMliResult : Obligations.MulMliResult := by
  intro b a s
  rw [← word_mulProduct, ← highWord_mulProduct, ← highWord_mliProduct]
  exact ⟨mul_writesResult b a s, mli_writesResult b a s⟩

/-- Settles O20: by the two cases of the divisor. -/
theorem divDviResult : Obligations.DivDviResult := by
  intro b a s
  have hdiv := div_writesResult b a s
  have hdvi := dvi_writesResult b a s
  constructor
  · intro hzero
    rw [hzero, divQuot_zero, divEx_zero] at hdiv
    rw [hzero, dviQuot_zero, dviEx_zero] at hdvi
    exact ⟨hdiv, hdvi⟩
  · intro hne
    rw [divQuot_of_ne_zero _ hne, divEx_of_ne_zero _ hne] at hdiv
    rw [dviQuot_of_ne_zero _ hne, dviEx_of_ne_zero _ hne] at hdvi
    exact ⟨hdiv, hdvi⟩

/-- Settles O21: by the two cases of the divisor. -/
theorem modMdiResult : Obligations.ModMdiResult := by
  intro b a s
  have hmod := mod_writesResult b a s
  have hmdi := mdi_writesResult b a s
  constructor
  · intro hzero
    rw [hzero, modRem_zero] at hmod
    rw [hzero, mdiRem_zero] at hmdi
    exact ⟨hmod, hmdi⟩
  · intro hne
    rw [modRem_of_ne_zero _ hne] at hmod
    rw [mdiRem_of_ne_zero _ hne] at hmdi
    exact ⟨hmod, hmdi⟩

/-- Settles O22: the exact sum and difference with EX, reduced. -/
theorem adxSbxResult : Obligations.AdxSbxResult := by
  intro b a s
  rw [← word_adxSum, ← carryEx_adxSum, ← word_sbxDiff, ← sbxEx_sbxDiff]
  exact ⟨adx_writesResult b a s, sbx_writesResult b a s⟩

/-- Settles O27: both are the write of SET at base cost 2, then a step of I and J, which touches two registers only. -/
theorem stiStdResult : Obligations.StiStdResult := by
  intro b a s p hp
  obtain ⟨hcode, hexec⟩ : encode p.1 = encodeBasic p.2.1 b a ∧
      exec p.1 s = .next (stepIJ p.2.2 (writeResult 2 b a s (srcVal b a s) none)) := by
    simp only [List.mem_cons, List.not_mem_nil, or_false] at hp
    rcases hp with rfl | rfl <;> exact ⟨rfl, rfl⟩
  obtain ⟨hreg, hpc, hsp, hex, hmem⟩ := writeResult_holdsOnly 2 b a s (srcVal b a s) none
  refine ⟨hcode, _, hexec, fun r => ?_, ?_, ?_, ?_, fun n => ?_, by simp [SameControl], ?_⟩
  · rw [stepIJ_reg, hreg, resolved_reg]
  · rw [stepIJ_pc, hpc]
  · rw [stepIJ_sp, hsp]
  · rw [stepIJ_ex, hex, resolved_ex]
    rfl
  · rw [stepIJ_readMem, hmem, resolved_readMem]
  · rw [stepIJ_sleepCycles, writeResult_sleepCycles]

end Sys2Proof.Machine
end

section
/-! SUPPORT. Logic and shifts (spec `43_logic_shift.md` R210 to R216): each instruction of the family as one write of its result and of
its EX, and the results and EX values of the shifts as products and floor quotients by a power of two. -/

namespace Sys2Proof.Machine

/-! ### One write -/

section
variable (b : DstOperand) (a : SrcOperand) (s : State)

theorem and_writesResult : WritesResult 0x0a (.and b a) 1 b a s (dstVal b a s &&& srcVal b a s) none := .of_exec rfl rfl

theorem bor_writesResult : WritesResult 0x0b (.bor b a) 1 b a s (dstVal b a s ||| srcVal b a s) none := .of_exec rfl rfl

theorem xor_writesResult : WritesResult 0x0c (.xor b a) 1 b a s (dstVal b a s ^^^ srcVal b a s) none := .of_exec rfl rfl

theorem shr_writesResult : WritesResult 0x0d (.shr b a) 1 b a s (shrResult (dstVal b a s) (srcVal b a s))
    (some (shiftOutRightEx (dstVal b a s) (srcVal b a s))) := .of_exec rfl rfl

theorem asr_writesResult : WritesResult 0x0e (.asr b a) 1 b a s (asrResult (dstVal b a s) (srcVal b a s))
    (some (shiftOutRightEx (dstVal b a s) (srcVal b a s))) := .of_exec rfl rfl

theorem shl_writesResult : WritesResult 0x0f (.shl b a) 1 b a s (shlResult (dstVal b a s) (srcVal b a s))
    (some (shiftOutLeftEx (dstVal b a s) (srcVal b a s))) := .of_exec rfl rfl

end

/-! ### Shifts as arithmetic

A shift works on the unbounded integer and its amount is not masked (R216), so each equation holds for every amount. -/

/-- Shifting a natural number right and reducing is floor division by a power of two (R11). -/
theorem word_natCast_shiftRight (m n : Nat) : word ((m : Int) >>> n) = BitVec.ofNat 16 (m / 2 ^ n) := by
  rw [Int.shiftRight_eq_div_pow, ← Int.natCast_ediv, word_natCast]

section
variable (b a : Word)

theorem shrResult_eq : shrResult b a = BitVec.ofNat 16 (b.toNat / 2 ^ a.toNat) := word_natCast_shiftRight b.toNat a.toNat

theorem shiftOutRightEx_eq : shiftOutRightEx b a = BitVec.ofNat 16 (b.toNat * 65536 / 2 ^ a.toNat) :=
  word_natCast_shiftRight (b.toNat * 65536) a.toNat

/-- The signed value is shifted, so the quotient is floored toward minus infinity (R214). -/
theorem asrResult_eq : asrResult b a = BitVec.ofInt 16 (b.toInt / 2 ^ a.toNat) := by
  rw [asrResult, Int.shiftRight_eq_div_pow, Int.natCast_pow]
  rfl

theorem shlResult_eq : shlResult b a = BitVec.ofNat 16 (b.toNat * 2 ^ a.toNat) := by rw [shlResult, Nat.shiftLeft_eq]

theorem shiftOutLeftEx_eq : shiftOutLeftEx b a = BitVec.ofNat 16 (b.toNat * 2 ^ a.toNat / 65536) := by
  rw [shiftOutLeftEx, Nat.shiftLeft_eq, Nat.shiftRight_eq_div_pow]

end

end Sys2Proof.Machine
end

section
/-! SUPPORT. The statements about logic and shifts, each settled from the lemmas above. They stand in a namespace of their own: the
model's functions `Machine.shrResult`, `asrResult` and `shlResult` bear the names of three of them. -/

namespace Sys2Proof.Machine.LogicShift

/-- Settles O23: each is one write of a bitwise result, with no EX beside it. -/
theorem logicResults : Obligations.LogicResults := fun b a s =>
  ⟨and_writesResult b a s, bor_writesResult b a s, xor_writesResult b a s⟩

/-- Settles O24: both shifts right, of the word and of the word with 16 fraction bits, are floor quotients. -/
theorem shrResult : Obligations.ShrResult := by
  intro b a s
  rw [← shrResult_eq, ← shiftOutRightEx_eq]
  exact shr_writesResult b a s

/-- Settles O25: the signed shift is a floor quotient; EX is that of SHR. -/
theorem asrResult : Obligations.AsrResult := by
  intro b a s
  rw [← asrResult_eq, ← shiftOutRightEx_eq]
  exact asr_writesResult b a s

/-- Settles O26: the shift left is a product, and its bits 31:16 are that product's floor quotient by 65536. -/
theorem shlResult : Obligations.ShlResult := by
  intro b a s
  rw [← shlResult_eq, ← shiftOutLeftEx_eq]
  exact shl_writesResult b a s

end Sys2Proof.Machine.LogicShift
end

section
/-! SUPPORT. Conditionals and skipping (spec `44_conditional.md` R230 to R240): the fuel of `skip` is enough for every skip that ends,
so `skip` computes the chain relation `SkipsTo`; and everything one instruction of the family can do, in terms of that relation. -/

namespace Sys2Proof.Machine

/-! ### The skip is the chain relation -/

section
variable {mem : Memory} {p p' q : Word} {n m : Nat}

/-- What `skipFrom` answers is a chain (R239). -/
theorem SkipsTo.of_skipFrom {fuel : Nat} (h : skipFrom mem fuel p = some (q, n)) : SkipsTo mem p q n := by
  induction fuel generalizing p n with
  | zero => cases h
  | succ fuel ih =>
    rw [skipFrom_succ] at h
    cases hc : isConditional (mem.read p) with
    | false =>
      rw [hc] at h
      cases h
      exact .last hc
    | true =>
      rw [if_pos hc, Option.map_eq_some_iff] at h
      obtain ⟨⟨q', n'⟩, htail, hr⟩ := h
      cases hr
      exact .more hc (ih htail)

/-- Fuel for as many turns as the chain is long finds its end. -/
theorem SkipsTo.skipFrom_eq (h : SkipsTo mem p q n) {fuel : Nat} (hn : n ≤ fuel) : skipFrom mem fuel p = some (q, n) := by
  induction h generalizing fuel with
  | last hc =>
    obtain ⟨fuel, rfl⟩ := Nat.exists_eq_add_of_le' hn
    rw [skipFrom_succ, hc]
    rfl
  | more hc _ ih =>
    obtain ⟨fuel, rfl⟩ := Nat.exists_eq_add_of_le' (Nat.le_of_add_left_le hn)
    rw [skipFrom_succ, if_pos hc, ih (Nat.le_of_succ_le_succ hn)]
    rfl

/-- A skip has one end and one length. -/
theorem SkipsTo.unique (h : SkipsTo mem p q n) (h' : SkipsTo mem p p' m) : q = p' ∧ n = m := by
  have heq : some (q, n) = some (p', m) :=
    (h.skipFrom_eq (Nat.le_add_right n m)).symm.trans (h'.skipFrom_eq (Nat.le_add_left m n))
  cases heq
  exact ⟨rfl, rfl⟩

/-- The chain passes addresses from which any smaller number of instructions is left. -/
theorem SkipsTo.exists_suffix (h : SkipsTo mem p q n) {k : Nat} (hk : k < n) : ∃ r, SkipsTo mem r q (k + 1) := by
  induction h with
  | @last p hc =>
    obtain rfl : k = 0 := by omega
    exact ⟨p, .last hc⟩
  | @more p q n hc htail ih =>
    by_cases hkn : k = n
    · subst hkn
      exact ⟨p, .more hc htail⟩
    · exact ih (by omega)

/-- A skip that ends passes no address twice, since the length of a chain depends on its first address only: so it is no longer than
there are addresses. -/
theorem SkipsTo.length_le (h : SkipsTo mem p q n) : n ≤ addressSpace := by
  choose r hr using fun k : Fin n => h.exists_suffix k.isLt
  refine Fin.le_of_injective (fun k => (r k).toFin) fun j k hjk => ?_
  have hsame : r j = r k := BitVec.toFin_inj.1 hjk
  have hlen := ((hr j).unique (hsame ▸ hr k)).2
  omega

end

/-- `skip` answers exactly the end and the length of the chain at PC (R239). -/
theorem skip_eq_some_iff {s : State} {pc : Word} {n : Nat} : skip s = some (pc, n) ↔ SkipsTo s.mem s.pc pc n :=
  ⟨.of_skipFrom, fun h => h.skipFrom_eq h.length_le⟩

/-- `skip` gives up only where no chain ends (log entry 8). -/
theorem skip_eq_none_iff {s : State} : skip s = none ↔ ∀ pc n, ¬SkipsTo s.mem s.pc pc n := by
  simp only [Option.eq_none_iff_forall_ne_some, Prod.forall, ne_eq, skip_eq_some_iff]

/-! ### The instructions of the family -/

section
variable {b : DstOperand} {a : SrcOperand} {s : State} {p : Instr × BitVec 5 × Bool}

/-- An instruction of the table of conditionals has the table's opcode, and its meaning is the common rule (R230) with the table's test
(R231 to R238). -/
theorem exec_of_mem_conditionals (hp : p ∈ conditionals b a s) :
    encode p.1 = encodeBasic p.2.1 b a ∧
    ∃ test, exec p.1 s = conditional test b a s ∧ test (dstVal b a s) (srcVal b a s) = p.2.2 := by
  simp only [conditionals, List.mem_cons, List.not_mem_nil, or_false] at hp
  rcases hp with rfl | rfl | rfl | rfl | rfl | rfl | rfl | rfl
  · exact ⟨rfl, testIfb, rfl, by simp [testIfb, bne, beq_eq_decide]⟩
  · exact ⟨rfl, testIfc, rfl, by simp [testIfc, beq_eq_decide]⟩
  · exact ⟨rfl, testIfe, rfl, by simp [testIfe, beq_eq_decide]⟩
  · exact ⟨rfl, testIfn, rfl, by simp [testIfn, bne, beq_eq_decide]⟩
  · exact ⟨rfl, testIfg, rfl, by simp [testIfg, u]⟩
  · exact ⟨rfl, testIfa, rfl, rfl⟩
  · exact ⟨rfl, testIfl, rfl, by simp [testIfl, u]⟩
  · exact ⟨rfl, testIfu, rfl, rfl⟩

/-- A conditional that ends in its resolved state but for PC and the cycles owed has written nothing else (R230, R240). -/
theorem GoesTo.of_exec {o : BitVec 5} {i : Instr} {pc : Word} {n : Nat} (hcode : encode i = encodeBasic o b a)
    (hexec : exec i s = .next (((resolved b a s).setPc pc).setSleep (2 + costA a + costB b + n - 1))) :
    GoesTo o i b a s pc n := by
  refine ⟨hcode, _, hexec, rfl, rfl, ?_, fun r => ?_, fun m => ?_, ?_, rfl⟩
  · exact resolved_ex a b s
  · exact resolved_reg a b s r
  · exact resolved_readMem a b s m
  · simp [SameControl]

/-- Everything an instruction of the family can do: go on, go to the end of the chain it skips, or fault where none ends. -/
theorem exec_conditional_cases (hp : p ∈ conditionals b a s) :
    (p.2.2 = true ∧ GoesTo p.2.1 p.1 b a s (resolved b a s).pc 0) ∨
    (p.2.2 = false ∧ ∃ pc n, SkipsTo s.mem (resolved b a s).pc pc n ∧ GoesTo p.2.1 p.1 b a s pc n) ∨
    (p.2.2 = false ∧ (∀ pc n, ¬SkipsTo s.mem (resolved b a s).pc pc n) ∧ exec p.1 s = .fault .skipNeverEnds) := by
  obtain ⟨hcode, test, hexec, htest⟩ := exec_of_mem_conditionals hp
  rw [← htest, ← resolved_mem a b s]
  rcases conditional_cases test b a s with ⟨ht, e⟩ | ⟨hf, pc, n, hskip, e⟩ | ⟨hf, hskip, e⟩
  · exact .inl ⟨ht, .of_exec hcode (hexec.trans e)⟩
  · exact .inr (.inl ⟨hf, pc, n, skip_eq_some_iff.1 hskip, .of_exec hcode (hexec.trans e)⟩)
  · exact .inr (.inr ⟨hf, skip_eq_none_iff.1 hskip, hexec.trans e⟩)

end

/-- Every instruction outside the family answers a next state. -/
theorem exec_next_or_conditional (i : Instr) (s : State) :
    (∃ t, exec i s = .next t) ∨ ∃ b a, ∃ p ∈ conditionals b a s, p.1 = i := by
  cases i with
  | ifb b a | ifc b a | ife b a | ifn b a | ifg b a | ifa b a | ifl b a | ifu b a =>
    exact .inr ⟨b, a, by simp [conditionals]⟩
  | set b a | add b a | sub b a | mul b a | mli b a | div b a | dvi b a | mod b a | mdi b a | and b a | bor b a | xor b a
  | shr b a | asr b a | shl b a | adx b a | sbx b a | sti b a | std b a
  | jsr a | int a | iag a | ias a | rfi a | iaq a | hwn a | hwq a | hwi a
  | reservedBasic18 b a | reservedBasic19 b a | reservedBasic1c b a | reservedBasic1d b a
  | reservedSpecial00 a | reservedSpecial02 a | reservedSpecial03 a | reservedSpecial04 a | reservedSpecial05 a
  | reservedSpecial06 a | reservedSpecial07 a | reservedSpecial0d a | reservedSpecial0e a | reservedSpecial0f a
  | reservedSpecial13 a | reservedSpecial14 a | reservedSpecial15 a | reservedSpecial16 a | reservedSpecial17 a
  | reservedSpecial18 a | reservedSpecial19 a | reservedSpecial1a a | reservedSpecial1b a | reservedSpecial1c a
  | reservedSpecial1d a | reservedSpecial1e a | reservedSpecial1f a => exact .inl ⟨_, rfl⟩

/-- Every instruction has a next state, or is a conditional whose test fails where no chain ends. -/
theorem exec_next_or_endless (i : Instr) (s : State) :
    (∃ t, exec i s = .next t) ∨
    (exec i s = .fault .skipNeverEnds ∧
      ∃ b a o, (i, o, false) ∈ conditionals b a s ∧ ∀ pc n, ¬SkipsTo s.mem (resolved b a s).pc pc n) := by
  rcases exec_next_or_conditional i s with hnext | ⟨b, a, ⟨i, o, holds⟩, hp, rfl⟩
  · exact .inl hnext
  · rcases exec_conditional_cases hp with ⟨-, -, t, hnext, -⟩ | ⟨-, pc, n, -, -, t, hnext, -⟩ | ⟨rfl, hendless, hfault⟩
    · exact .inl ⟨t, hnext⟩
    · exact .inl ⟨t, hnext⟩
    · exact .inr ⟨hfault, b, a, o, hp, hendless⟩

end Sys2Proof.Machine
end

section
/-! SUPPORT. The statements about conditionals, each settled from the lemmas above. -/

namespace Sys2Proof.Machine

/-- Settles O28: of the cases of a conditional only the first has a test that holds. -/
theorem conditionalPasses : Obligations.ConditionalPasses := by
  intro b a s p hp hpass
  rcases exec_conditional_cases hp with ⟨-, hgoes⟩ | ⟨hfail, -⟩ | ⟨hfail, -⟩
  · exact hgoes
  · exact absurd (hpass.symm.trans hfail) (by decide)
  · exact absurd (hpass.symm.trans hfail) (by decide)

/-- Settles O29: the skip finds an end because the chain has one, and it is this one because a chain has one end only. -/
theorem conditionalFailsAndSkips : Obligations.ConditionalFailsAndSkips := by
  intro b a s pc n hchain p hp hfail
  rcases exec_conditional_cases hp with ⟨hpass, -⟩ | ⟨-, pc', n', hchain', hgoes⟩ | ⟨-, hendless, -⟩
  · exact absurd (hpass.symm.trans hfail) (by decide)
  · obtain ⟨rfl, rfl⟩ := hchain'.unique hchain
    exact hgoes
  · exact absurd hchain (hendless pc n)

/-- Settles O30: what is not a next state is an endless skip, and a conditional faced with one has no case left but the fault. -/
theorem onlyEndlessSkipsStop : Obligations.OnlyEndlessSkipsStop := by
  intro i s
  refine ⟨⟨fun hfault => ?_, ?_⟩, fun hno => ?_⟩
  · rcases exec_next_or_endless i s with ⟨t, hnext⟩ | ⟨-, hendless⟩
    · cases hfault.symm.trans hnext
    · exact hendless
  · rintro ⟨b, a, o, hp, hendless⟩
    rcases exec_conditional_cases hp with ⟨hpass, -⟩ | ⟨-, pc, n, hchain, -⟩ | ⟨-, -, hfault⟩
    · cases hpass
    · exact absurd hchain (hendless pc n)
    · exact hfault
  · rcases exec_next_or_endless i s with hnext | ⟨hfault, -⟩
    · exact hnext
    · exact absurd hfault hno

end Sys2Proof.Machine
end

section
/-! SUPPORT. Special instructions (spec `45_special.md` R250 to R262): the next state of each, what `Enqueue` does to the queue
and the fatal bit, and the common results of the two kinds of reserved row and of the two instructions that write their operand. -/

namespace Sys2Proof.Machine

/-! ### The queue -/

section
variable {s : State} {m : Word} (hf : s.onFire = false)
include hf

/-- With a place left in the queue the message is pending, behind the others (R363). -/
theorem State.enqueue_of_room (hroom : s.queue.length < params.queueCap) : s.enqueue m = s.setQueue (s.queue ++ [m]) := by
  simp [State.enqueue, hf, hroom]

/-- With no place left the CPU catches fire (R368). -/
theorem State.enqueue_of_full (hfull : params.queueCap ≤ s.queue.length) : s.enqueue m = s.setOnFire true := by
  simp [State.enqueue, hf, hfull]

end

/-! ### The next state of each instruction -/

/-- A special instruction of base cost `n + 1` leaves `n` cycles and its operand's to be paid (R123, R124). -/
theorem special_succ (n : Nat) (a : SrcOperand) (t : State) : special (n + 1) a t = .next (t.setSleep (n + costA a)) := by
  have hcost : n + 1 + costA a - 1 = n + costA a := by omega
  rw [special, hcost]

section
variable (a : SrcOperand) (s : State)

theorem exec_jsr_eq :
    exec (.jsr a) s = .next ((((afterSrc a s).push (afterSrc a s).pc).setPc (argVal a s)).setSleep (2 + costA a)) :=
  special_succ 2 a _

theorem exec_int_eq : exec (.int a) s = .next (((afterSrc a s).enqueue (argVal a s)).setSleep (3 + costA a)) :=
  special_succ 3 a _

theorem exec_iag_eq : exec (.iag a) s = .next (((afterSrc a s).writeLoc (srcLoc a s) s.ia).setSleep (0 + costA a)) := by
  rw [← afterSrc_ia a s]
  exact special_succ 0 a _

theorem exec_hwn_eq :
    exec (.hwn a) s =
      .next (((afterSrc a s).writeLoc (srcLoc a s) (BitVec.ofNat 16 s.devices.length)).setSleep (1 + costA a)) :=
  special_succ 1 a _

theorem exec_ias_eq :
    exec (.ias a) s =
      .next ((((afterSrc a s).setIa (argVal a s)).setIen (decide (argVal a s ≠ 0))).setSleep (costA a)) := by
  rw [← Nat.zero_add (costA a), decide_not, ← beq_eq_decide]
  exact special_succ 0 a _

theorem exec_iaq_eq : exec (.iaq a) s = .next (((afterSrc a s).setIaq (decide (argVal a s ≠ 0))).setSleep (1 + costA a)) := by
  rw [decide_not, ← beq_eq_decide]
  exact special_succ 1 a _

theorem exec_rfi_eq : exec (.rfi a) s = .next ((afterSrc a s).returnFromInterrupt.setSleep (2 + costA a)) :=
  special_succ 2 a _

theorem exec_hwi_eq :
    exec (.hwi a) s = .next ((callDevice (argVal a s).toNat (afterSrc a s)).setSleep
      (3 + extraCyclesAt s (argVal a s).toNat + costA a)) := by
  have hbase : 4 + extraCyclesAt s (argVal a s).toNat = 3 + extraCyclesAt s (argVal a s).toNat + 1 := by omega
  have hexec : exec (.hwi a) s = special (4 + extraCyclesAt s (argVal a s).toNat) a
    (callDevice (argVal a s).toNat (afterSrc a s)) := rfl
  rw [hexec, hbase, special_succ]

end

/-! ### HWI and the device list -/

theorem extraCyclesAt_of_none {s : State} {n : Nat} (h : s.devices[n]? = none) : extraCyclesAt s n = 0 := by
  simp [extraCyclesAt, h]

theorem extraCyclesAt_of_some {s : State} {n : Nat} {d : Device} (h : s.devices[n]? = some d) :
    extraCyclesAt s n = deviceExtraCycles d := by
  simp [extraCyclesAt, h]

theorem callDevice_of_absent {s : State} {n : Nat} (h : s.devices[n]? = none) : callDevice n s = s := by
  simp [callDevice, h]

/-- Enqueueing looks only at the queue and the fatal bit, which resolving an operand leaves alone (R150). -/
theorem Enqueued.of_afterSrc {msgs : List Word} {a : SrcOperand} {s t : State} (h : Enqueued msgs (afterSrc a s) t) :
    Enqueued msgs s t := by
  obtain ⟨hqueue, hfire⟩ := h
  obtain ⟨hqueue', hfire'⟩ := State.enqueueAll_congr (afterSrc_queue a s) (afterSrc_onFire a s) msgs
  exact ⟨hqueue.trans hqueue', hfire.trans hfire'⟩

/-! ### Results that several instructions share -/

/-- IAG and HWN: a value is written to the operand and to nothing else (R254, R258). -/
theorem writesArg_of_exec {i : Instr} {so : BitVec 5} {a : SrcOperand} {s : State} {v : Word} {n : Nat}
    (hcode : encode i = encodeSpecial so a)
    (hexec : exec i s = .next (((afterSrc a s).writeLoc (srcLoc a s) v).setSleep n)) :
    encode i = encodeSpecial so a ∧
    ∃ t, exec i s = .next t ∧ HoldsOnly (srcLoc a s) v none (afterSrc a s) t ∧ SameControl s t ∧ t.sleepCycles = n :=
  ⟨hcode, _, hexec, writeArg_holdsOnly a s v n, writeArg_sameControl a s v n, rfl⟩

/-- A reserved basic row: both operands are resolved, and the status names the word and its address (R262, R372). -/
theorem decodeError_of_reservedBasic {i : Instr} {o : BitVec 5} {b : DstOperand} {a : SrcOperand} {s : State}
    (hcode : encode i = encodeBasic o b a) (hexec : exec i s = reservedBasic o b a s) :
    encode i = encodeBasic o b a ∧
    ∃ t, exec i s = .next t ∧ t.status = .decodeError (basicWord o b a) s.pc ∧ SameRegs s t ∧ SameMemory s t ∧
      PointersOf (resolved b a s) t ∧ SameControl (s.setStatus t.status) t ∧ t.sleepCycles = costA a + costB b := by
  refine ⟨hcode, _, hexec, rfl, resolved_reg a b s, resolved_readMem a b s, ⟨rfl, rfl, rfl⟩, by simp [SameControl], ?_⟩
  show 1 + costA a + costB b - 1 = costA a + costB b
  omega

/-- A reserved special row: the operand is resolved, and the status names the word and its address (R261, R372). -/
theorem decodeError_of_reservedSpecial {i : Instr} {so : BitVec 5} {a : SrcOperand} {s : State}
    (hcode : encode i = encodeSpecial so a) (hexec : exec i s = reservedSpecial so a s) :
    encode i = encodeSpecial so a ∧
    ∃ t, exec i s = .next t ∧ t.status = .decodeError (specialWord so a) s.pc ∧ SameRegs s t ∧ SameMemory s t ∧
      PointersOf (afterSrc a s) t ∧ SameControl (s.setStatus t.status) t ∧ t.sleepCycles = costA a :=
  ⟨hcode, _, hexec.trans (special_succ 0 a _), rfl, afterSrc_reg a s, afterSrc_readMem a s, ⟨rfl, rfl, rfl⟩,
    by simp [SameControl], Nat.zero_add (costA a)⟩

end Sys2Proof.Machine
end

section
/-! SUPPORT. The statements about special instructions, each settled from the lemmas above. -/

namespace Sys2Proof.Machine

/-- Settles O31: the operand's value is fixed in the resolved state, so neither the push nor the jump disturbs it. -/
theorem jsrResult : Obligations.JsrResult := by
  intro a s
  refine ⟨rfl, _, exec_jsr_eq a s, rfl, rfl, fun n => ?_, afterSrc_reg a s, afterSrc_ex a s, by simp [SameControl], rfl⟩
  rw [State.setSleep_readMem, State.setPc_readMem, State.push_readMem, afterSrc_readMem]

/-- Settles O32: `Enqueue` on the resolved state, whose queue and fatal bit are those before the instruction. -/
theorem intQueuesMessage : Obligations.IntQueuesMessage := by
  intro a s
  refine ⟨rfl, _, exec_int_eq a s, fun r => by simp, fun n => by simp, by simp [PointersOf], by simp, by simp, by simp, by simp,
    by simp, rfl, fun hf hroom => ?_, fun hf hfull => ?_⟩
  · have henq : (afterSrc a s).enqueue (argVal a s) = (afterSrc a s).setQueue ((afterSrc a s).queue ++ [argVal a s]) :=
      State.enqueue_of_room (by rwa [afterSrc_onFire]) (by rwa [afterSrc_queue])
    simp [henq, hf]
  · have henq : (afterSrc a s).enqueue (argVal a s) = (afterSrc a s).setOnFire true :=
      State.enqueue_of_full (by rwa [afterSrc_onFire]) (by rwa [afterSrc_queue])
    simp [henq]

/-- Settles O33: both are one write through the operand's location. -/
theorem iagHwnWriteOperand : Obligations.IagHwnWriteOperand := by
  intro a s
  simp only [List.forall_mem_cons, List.not_mem_nil, false_implies, implies_true, and_true]
  exact ⟨writesArg_of_exec rfl (exec_iag_eq a s), writesArg_of_exec rfl (exec_hwn_eq a s)⟩

/-- Settles O34: IAS and IAQ set control fields of the resolved state, and resolution moves PC and SP only (R150). -/
theorem iasIaqResult : Obligations.IasIaqResult := by
  intro a s
  constructor
  · exact ⟨rfl, _, exec_ias_eq a s, rfl, rfl, afterSrc_iaq a s, afterSrc_reg a s, afterSrc_readMem a s, ⟨rfl, rfl, rfl⟩,
      afterSrc_queue a s, afterSrc_onFire a s, afterSrc_devices a s, afterSrc_status a s, rfl⟩
  · exact ⟨rfl, _, exec_iaq_eq a s, rfl, afterSrc_ia a s, afterSrc_ien a s, afterSrc_reg a s, afterSrc_readMem a s,
      ⟨rfl, rfl, rfl⟩, afterSrc_queue a s, afterSrc_onFire a s, afterSrc_devices a s, afterSrc_status a s, rfl⟩

/-- Settles O35: the return from interrupt (R256) on the resolved state. -/
theorem rfiResult : Obligations.RfiResult := by
  intro a s
  refine ⟨rfl, _, exec_rfi_eq a s, rfl, fun r => by simp, ?_, ?_, afterSrc_ex a s, afterSrc_readMem a s, afterSrc_ia a s,
    afterSrc_ien a s, afterSrc_queue a s, afterSrc_onFire a s, afterSrc_devices a s, afterSrc_status a s, rfl⟩
  · exact afterSrc_readMem a s ((afterSrc a s).sp + 1)
  · rw [State.setSleep_sp, State.returnFromInterrupt_sp]
    bv_omega

/-- Settles O37: where no device is called the resolved state is the next state but for the cost. -/
theorem hwiAbsentDeviceIsNoOp : Obligations.HwiAbsentDeviceIsNoOp := by
  intro a s habsent
  have hcall : callDevice (argVal a s).toNat (afterSrc a s) = afterSrc a s :=
    callDevice_of_absent (by rwa [afterSrc_devices])
  have hexec := exec_hwi_eq a s
  rw [hcall, extraCyclesAt_of_none habsent] at hexec
  exact ⟨rfl, _, hexec, afterSrc_reg a s, afterSrc_readMem a s, ⟨rfl, rfl, rfl⟩, by simp [SameControl], rfl⟩

/-- Settles O43: each row's meaning is the one rule of its kind at the row's opcode. -/
theorem reservedEncodingsAreDecodeErrors : Obligations.ReservedEncodingsAreDecodeErrors := by
  intro b a s
  constructor
  · intro p hp
    simp only [List.mem_cons, List.not_mem_nil, or_false] at hp
    rcases hp with rfl | rfl | rfl | rfl
    all_goals exact decodeError_of_reservedBasic rfl rfl
  · intro p hp
    simp only [List.mem_cons, List.not_mem_nil, or_false] at hp
    rcases hp with rfl | rfl | rfl | rfl | rfl | rfl | rfl | rfl | rfl | rfl | rfl | rfl | rfl | rfl | rfl | rfl | rfl | rfl |
      rfl | rfl | rfl | rfl | rfl
    all_goals exact decodeError_of_reservedSpecial rfl rfl

/-- Settles O46: RFI (O35) pops the two words delivery pushed, from where it pushed them, because its operand leaves SP alone. -/
theorem rfiUndoesDelivery : Obligations.RfiUndoesDelivery := by
  intro s m rest a hqueue hdelivers hpop
  rcases s.deliver_cases with hnone | ⟨m', rest', hqueue', -, -, -, hiaq, htaken⟩
  · exact absurd hnone hdelivers
  cases hqueue.symm.trans hqueue'
  obtain ⟨-, t, hexec, htiaq, hreg, hpc, hsp, hex, hmem, hia, hien, htqueue, -⟩ := rfiResult a s.deliver
  have hpushed : (afterSrc a s.deliver).sp = s.sp - 2 := by
    simp [htaken, popBy_eq, hpop]
  have hread (n : Word) :
      s.deliver.readMem n = if n = s.sp - 2 then s.reg .a else if n = s.sp - 1 then s.pc else s.readMem n := by
    rw [htaken, State.takeInterrupt_readMem]
  have hnext : s.sp - 2 + 1 = s.sp - 1 := by bv_omega
  have hapart : s.sp - 1 ≠ s.sp - 2 := by bv_omega
  have hback : s.sp - 2 + 2 = s.sp := BitVec.sub_add_cancel s.sp 2
  refine ⟨t, hexec, fun r => ?_, ⟨?_, ?_, ?_⟩, htiaq, htiaq.trans hiaq.symm, ?_, ?_, ?_, fun n h1 h2 => ?_⟩
  · rw [hreg, hpushed, hread, if_pos rfl, htaken, State.takeInterrupt_reg]
    split
    · rename_i hr
      rw [hr]
    · rfl
  · rw [hpc, hpushed, hnext, hread, if_neg hapart, if_pos rfl]
  · rw [hsp, hpushed, hback]
  · rw [hex, State.deliver_ex]
  · rw [hia, State.deliver_ia]
  · rw [hien, State.deliver_ien]
  · rw [htqueue, htaken, State.takeInterrupt_queue]
  · rw [hmem, hread, if_neg h2, if_neg h1]

/-- Settles O58: the lemmas about a call of an attached device, at the resolved state. -/
theorem hwiOnExternalDevice : Obligations.HwiOnExternalDevice := by
  rintro a s id kind msg priv r hdev rfl
  have hdev' : (afterSrc a s).devices[(argVal a s).toNat]? = some (.external id kind msg priv) := by rwa [afterSrc_devices]
  have hdevices := callDevice_devices hdev'
  rw [afterSrc_devices] at hdevices
  have hexec := exec_hwi_eq a s
  rw [extraCyclesAt_of_some hdev] at hexec
  exact ⟨_, hexec, callDevice_view hdev', (callDevice_enqueued hdev').of_afterSrc, hdevices, by simp, by simp, by simp, rfl⟩

end Sys2Proof.Machine
end

section
/-! SUPPORT. Silence (spec `46_device_bus.md` R285): a device whose interrupt message is zero returns no message, device by device, and
which calls set the message. -/

namespace Sys2Proof.Machine

/-! ### The floppy controller -/

/-- `SetStatus` raises nothing on a controller whose message is zero (R305). -/
theorem floppySetStatus_silent {f : Floppy} (h : f.msg = 0) (st : FloppyState) (er : FloppyError) :
    (floppySetStatus f st er).2 = [] :=
  if_neg fun ⟨_, hne⟩ => hne h

/-- A rejection latches its error through `SetStatus` and leaves the message alone (R308, R310). -/
theorem floppyReject_silent {f : Floppy} {v : View} {er : FloppyError} (h : (floppyReject f v er).1.msg = 0) :
    (floppyReject f v er).2.2 = [] :=
  floppySetStatus_silent (f := f) h f.state er

/-- Only a rejected read or write raises anything, and it keeps the message it would raise (R305 to R311). -/
theorem floppyInterrupt_silent {f : Floppy} {v : View} (h : (floppyInterrupt f v).1.msg = 0) :
    (floppyInterrupt f v).2.2 = [] := by
  rcases floppyInterrupt_cases f v with e | e | e | e | e <;> rw [e] at h ⊢
  · rcases floppyRead_cases f v with ⟨er, -, -, e⟩ | ⟨-, e⟩ <;> rw [e] at h ⊢
    exact floppyReject_silent h
  · rcases floppyWrite_cases f v with ⟨er, -, -, e⟩ | ⟨-, -, e⟩ <;> rw [e] at h ⊢
    exact floppyReject_silent h

/-- Inserting raises through `SetStatus` only (R304, R305). -/
theorem floppyInsert_silent {f f' : Floppy} {img : Image} {wp : Bool} {msgs : List Word} (h : f.msg = 0)
    (hi : floppyInsert f img wp = some (f', msgs)) : msgs = [] := by
  unfold floppyInsert at hi
  split at hi
  · cases hi
    exact floppySetStatus_silent h _ _
  · cases hi

/-- Ejecting raises through `SetStatus` only (R304, R305). -/
theorem floppyEject_silent {f f' : Floppy} {msgs : List Word} {img : Option Image} (h : f.msg = 0)
    (he : floppyEject f = some (f', msgs, img)) : msgs = [] := by
  unfold floppyEject at he
  split at he
  · cases he
  · cases he
    exact floppySetStatus_silent h _ _

/-! ### The clock and the display -/

/-- No sub-command of the clock raises anything (R333 to R336). -/
theorem clockInterrupt_messages (c : Clock) (v : View) : (clockInterrupt c v).2.2 = [] := by
  unfold clockInterrupt
  split <;> rfl

/-- A clock's `cycle()` leaves its message alone (R332, R337). -/
theorem clockCycle_msg (c : Clock) : (clockCycle c).1.msg = c.msg := by
  rcases clockCycle_cases c with ⟨-, e⟩ | ⟨-, -, e⟩ | ⟨-, -, e⟩ <;> rw [e]

/-- The display raises nothing (R352, R353). -/
theorem displayInterrupt_messages (d : Display) (v : View) : (displayInterrupt d v).2.2 = [] := by
  unfold displayInterrupt
  split <;> rfl

/-! ### Any device -/

/-- What counts is the message the call leaves the device with (log entry 10). -/
theorem deviceInterrupt_silent {d : Device} {v : View} (h : deviceMessage (deviceInterrupt d v).1 = 0) :
    (deviceInterrupt d v).2.2 = [] := by
  cases d with
  | floppy f => exact floppyInterrupt_silent h
  | clock c => exact clockInterrupt_messages c v
  | display p => exact displayInterrupt_messages p v
  | external id kind msg priv => exact if_pos h

theorem deviceCycle_silent {d : Device} (h : deviceMessage d = 0) : (deviceCycle d).2 = [] := by
  cases d with
  | floppy f => rfl
  | clock c =>
    rw [deviceCycle_clock_messages]
    exact if_neg fun ⟨_, _, hne⟩ => hne h
  | display p => rfl
  | external id kind msg priv => exact if_pos h

/-- No `cycle()` sets an interrupt message (R285, log entry 10). -/
theorem deviceMessage_deviceCycle (d : Device) : deviceMessage (deviceCycle d).1 = deviceMessage d := by
  cases d with
  | floppy f => rfl
  | clock c => exact clockCycle_msg c
  | display p => rfl
  | external id kind msg priv => rfl

/-! ### Insert and eject -/

theorem floppyAt_eq_some_iff {n : Nat} {s : State} {f : Floppy} :
    floppyAt n s = some f ↔ s.devices[n]? = some (.floppy f) :=
  ⟨floppyAt_eq_some, fun h => by simp [floppyAt, h]⟩

section
variable {s : State} {n : Nat} {f : Floppy} (hf : s.devices[n]? = some (.floppy f)) (hmsg : f.msg = 0)
include hf hmsg

theorem hostInsert_queue_of_silent (img : Image) (wp : Bool) : (hostInsert n img wp s).1.queue = s.queue := by
  rcases hostInsert_cases n img wp s with e | ⟨g, g', msgs, hg, hi, e⟩ <;> rw [e]
  cases hg.symm.trans (floppyAt_eq_some_iff.2 hf)
  rw [floppyInsert_silent hmsg hi]
  rfl

theorem hostEject_queue_of_silent : (hostEject n s).1.queue = s.queue := by
  rcases hostEject_cases n s with e | ⟨g, g', msgs, img, hg, he, e⟩ <;> rw [e]
  cases hg.symm.trans (floppyAt_eq_some_iff.2 hf)
  rw [floppyEject_silent hmsg he]
  rfl

end

end Sys2Proof.Machine
end

section
/-! SUPPORT. The statement about the device bus, settled from the lemmas above. -/

namespace Sys2Proof.Machine

/-- Settles O60: every device's calls, and the two host actions that raise a controller's message. -/
theorem zeroMessageDeviceIsSilent : Obligations.ZeroMessageDeviceIsSilent :=
  ⟨fun _ _ => deviceInterrupt_silent, fun _ => deviceCycle_silent, deviceMessage_deviceCycle,
    fun _ _ _ img wp hf hmsg => ⟨hostInsert_queue_of_silent hf hmsg img wp, hostEject_queue_of_silent hf hmsg⟩⟩

end Sys2Proof.Machine
end

section
/-! SUPPORT. What HWI leaves of the machine once the called device has answered (spec `45_special.md` R260, `46_device_bus.md` R282 to
R285), whichever device it is. -/

namespace Sys2Proof.Machine

/-- From `s` to `t` the device that HWI with operand `a` calls has become `d`, left its view as `v` and returned `msgs`; the flags and
the status are as before. -/
structure Answered (a : SrcOperand) (s : State) (d : Device) (v : View) (msgs : List Word) (t : State) : Prop where
  view : t.view = v
  devices : t.devices = s.devices.set (argVal a s).toNat d
  enqueued : Enqueued msgs s t
  ien : t.ien = s.ien
  iaq : t.iaq = s.iaq
  status : t.status = s.status

/-- HWI on an attached device completes with the answer of the device's `interrupt`, at a cost of 4, the device's extra and the operand
(R260). -/
theorem exec_hwi_answered {a : SrcOperand} {s : State} {d : Device} (h : s.devices[(argVal a s).toNat]? = some d) :
    ∃ t, exec (.hwi a) s = .next t ∧
      Answered a s (deviceInterrupt d (afterSrc a s).view).1 (deviceInterrupt d (afterSrc a s).view).2.1
        (deviceInterrupt d (afterSrc a s).view).2.2 t ∧
      t.sleepCycles = 3 + deviceExtraCycles d + costA a := by
  have h' : (afterSrc a s).devices[(argVal a s).toNat]? = some d := by rwa [afterSrc_devices]
  have hdevices := callDevice_devices h'
  rw [afterSrc_devices] at hdevices
  have hexec := exec_hwi_eq a s
  rw [extraCyclesAt_of_some h] at hexec
  exact ⟨_, hexec, ⟨callDevice_view h', hdevices, (callDevice_enqueued h').of_afterSrc, by simp, by simp, by simp⟩, rfl⟩

section
variable {a : SrcOperand} {s t : State} {d : Device} {v : View} {msgs : List Word} (h : Answered a s d v msgs t)
include h

theorem Answered.reg (q : Reg) : t.reg q = v.regs.get q := congrArg (fun v : View => v.regs.get q) h.view

theorem Answered.readMem (n : Word) : t.readMem n = v.mem.read n := congrArg (fun v : View => v.mem.read n) h.view

/-- A device that leaves the three pointers and IA of its view alone leaves those of the resolved state (R283). -/
theorem Answered.pointers_ia (hpc : v.pc = (afterSrc a s).pc) (hsp : v.sp = (afterSrc a s).sp)
    (hex : v.ex = (afterSrc a s).ex) (hia : v.ia = (afterSrc a s).ia) :
    PointersOf (afterSrc a s) t ∧ t.ia = s.ia :=
  ⟨⟨(congrArg View.pc h.view).trans hpc, (congrArg View.sp h.view).trans hsp, (congrArg View.ex h.view).trans hex⟩,
    (congrArg View.ia h.view).trans (hia.trans (afterSrc_ia a s))⟩

end

/-- The view a called device is handed reads the registers as they were before the instruction (R150, R283). -/
theorem afterSrc_view_get (a : SrcOperand) (s : State) (q : Reg) : (afterSrc a s).view.regs.get q = s.reg q :=
  afterSrc_reg a s q

@[simp] theorem View.setB_get (v : View) (w : Word) (q : Reg) : (v.setB w).regs.get q = if q = .b then w else v.regs.get q :=
  Regs.get_set v.regs .b q w

@[simp] theorem View.setC_get (v : View) (w : Word) (q : Reg) : (v.setC w).regs.get q = if q = .c then w else v.regs.get q :=
  Regs.get_set v.regs .c q w

theorem setB_afterSrc_view_get (a : SrcOperand) (s : State) (w : Word) (q : Reg) :
    ((afterSrc a s).view.setB w).regs.get q = if q = .b then w else s.reg q := by
  rw [View.setB_get, afterSrc_view_get]

end Sys2Proof.Machine
end

section
/-! SUPPORT. The floppy controller (spec `47_floppy.md`), call by call: what each sub-command of its `interrupt` answers, what a sector
copy leaves at every address, and what `insert` and `eject` do. -/

namespace Sys2Proof.Machine

/-! ### Copying a sector -/

/-- Copying a block between stores: inside the target the words of the source, outside it nothing changes. -/
theorem Cells.read_copyBlock (src dst : Cells) (m n len k : Nat) :
    Cells.read (Cells.writeBlock dst n (Cells.readBlock src m len)) k =
      if n ≤ k ∧ k < n + len then Cells.read src (m + (k - n)) else Cells.read dst k := by
  rw [Cells.read_writeBlock, Cells.length_readBlock]
  split
  · exact Cells.getD_readBlock src m len (k - n) (by omega)
  · rfl

/-- Memory after a sector was copied to `y` (R308). -/
theorem read_sectorToMem (img : Image) (x : Word) (m : Memory) (y n : Word) :
    (sectorToMem img x m y).read n =
      if y.toNat ≤ n.toNat ∧ n.toNat < y.toNat + 512 then Cells.read img (x.toNat * 512 + (n.toNat - y.toNat))
      else m.read n :=
  Cells.read_copyBlock img m (x.toNat * 512) y.toNat 512 n.toNat

/-- The image after memory at `y` was copied to sector `x`, in bounds, so that no address wraps (R309, R310). -/
theorem read_memToSector (s : State) {y : Word} (hy : y.toNat + 512 ≤ 65536) (img : Image) (x : Word) (k : Nat) :
    Cells.read (memToSector s.mem y img x) k =
      if x.toNat * 512 ≤ k ∧ k < x.toNat * 512 + 512 then s.readMem (y + BitVec.ofNat 16 (k - x.toNat * 512))
      else Cells.read img k := by
  have hcopy : Cells.read (memToSector s.mem y img x) k =
      if x.toNat * 512 ≤ k ∧ k < x.toNat * 512 + 512 then Cells.read s.mem (y.toNat + (k - x.toNat * 512))
      else Cells.read img k :=
    Cells.read_copyBlock s.mem img y.toNat (x.toNat * 512) 512 k
  rw [hcopy]
  split
  · have haddr : (y + BitVec.ofNat 16 (k - x.toNat * 512)).toNat = y.toNat + (k - x.toNat * 512) := by
      rw [BitVec.toNat_add, BitVec.toNat_ofNat]
      omega
    rw [State.readMem, Memory.read, haddr]
  · rfl

/-! ### The sub-commands of `interrupt` -/

/-- The controller never moves PC or SP (R306 to R311). -/
theorem floppyInterrupt_pc_sp (f : Floppy) (v : View) :
    (floppyInterrupt f v).2.1.pc = v.pc ∧ (floppyInterrupt f v).2.1.sp = v.sp := by
  rcases floppyInterrupt_cases f v with e | e | e | e | e <;> rw [e]
  · exact ⟨rfl, rfl⟩
  · exact ⟨rfl, rfl⟩
  · rcases floppyRead_cases f v with ⟨er, -, -, e⟩ | ⟨-, e⟩ <;> rw [e] <;> exact ⟨rfl, rfl⟩
  · rcases floppyWrite_cases f v with ⟨er, -, -, e⟩ | ⟨-, -, e⟩ <;> rw [e] <;> exact ⟨rfl, rfl⟩
  · exact ⟨rfl, rfl⟩

/-- HWI on a floppy controller completes with what the controller's `interrupt` answers, at a cost of 4 and the operand; the pointers
move as the operand says and IA, the flags and the status are left alone (R260, R306 to R311). -/
theorem exec_hwi_floppy {a : SrcOperand} {s : State} {f : Floppy} (h : s.devices[(argVal a s).toNat]? = some (.floppy f)) :
    ∃ t, exec (.hwi a) s = .next t ∧ PointersOf (afterSrc a s) t ∧ t.ia = s.ia ∧ t.ien = s.ien ∧ t.iaq = s.iaq ∧
      t.status = s.status ∧ t.sleepCycles = 3 + costA a ∧
      Answered a s (.floppy (floppyInterrupt f (afterSrc a s).view).1) (floppyInterrupt f (afterSrc a s).view).2.1
        (floppyInterrupt f (afterSrc a s).view).2.2 t := by
  obtain ⟨t, hexec, ht, hcost⟩ := exec_hwi_answered h
  obtain ⟨hpc, hsp⟩ := floppyInterrupt_pc_sp f (afterSrc a s).view
  obtain ⟨hex, hia⟩ := floppyInterrupt_ex_ia f (afterSrc a s).view
  obtain ⟨hptr, hia'⟩ := ht.pointers_ia hpc hsp hex hia
  exact ⟨t, hexec, hptr, hia', ht.ien, ht.iaq, ht.status, hcost, ht⟩

theorem Answered.of_eq {a : SrcOperand} {s t : State} {r : Floppy × View × List Word}
    (h : Answered a s (.floppy r.1) r.2.1 r.2.2 t) {f : Floppy} {v : View} {msgs : List Word} (hr : r = (f, v, msgs)) :
    Answered a s (.floppy f) v msgs t := by
  subst hr
  exact h

/-- Every sub-command but the two that move a sector: poll, set message, or nothing (R306, R307, R311). -/
theorem floppyInterrupt_of_no_transfer (f : Floppy) {v : View} (h2 : v.regs.a ≠ 2) (h3 : v.regs.a ≠ 3) :
    floppyInterrupt f v =
      (if v.regs.a = 0 then { f with error := .none } else if v.regs.a = 1 then { f with msg := v.regs.x } else f,
        if v.regs.a = 0 then (v.setB (floppyStateCode f.state)).setC (floppyErrorCode f.error) else v, []) := by
  unfold floppyInterrupt
  split
  case h_1 h =>
    have hA : v.regs.a = 0 := BitVec.eq_of_toNat_eq h
    simp [hA]
  case h_2 h =>
    have hA : v.regs.a = 1 := BitVec.eq_of_toNat_eq h
    simp [hA]
  case h_3 h => exact absurd (BitVec.eq_of_toNat_eq h) h2
  case h_4 h => exact absurd (BitVec.eq_of_toNat_eq h) h3
  case h_5 h0 h1 _ _ =>
    rw [if_neg fun hA => h0 (congrArg BitVec.toNat hA), if_neg fun hA => h1 (congrArg BitVec.toNat hA),
      if_neg fun hA => h0 (congrArg BitVec.toNat hA)]

theorem floppyInterrupt_of_read (f : Floppy) {v : View} (h : v.regs.a = 2) : floppyInterrupt f v = floppyRead f v := by
  simp [floppyInterrupt, h]

theorem floppyInterrupt_of_write (f : Floppy) {v : View} (h : v.regs.a = 3) : floppyInterrupt f v = floppyWrite f v := by
  simp [floppyInterrupt, h]

/-- A rejection latches the error, clears B, and raises the message when the latch changed (R305). -/
theorem floppyReject_eq (f : Floppy) (v : View) (er : FloppyError) :
    floppyReject f v er = ({ f with error := er }, v.setB 0, if er ≠ f.error ∧ f.msg ≠ 0 then [f.msg] else []) := by
  simp [floppyReject, floppySetStatus]

theorem floppyInBounds_eq_false_iff (x y : Word) :
    floppyInBounds x y = false ↔ 1440 ≤ x.toNat ∨ 65536 < y.toNat + 512 := by
  rw [← Bool.not_eq_true, floppyInBounds_iff, not_and_or, Nat.not_lt, Nat.not_le]
  rfl

/-- A read is rejected for its media before its bounds (R308). -/
theorem floppyRead_rejected {f : Floppy} {v : View}
    (h : f.state = .noMedia ∨ f.state = .busy ∨ 1440 ≤ v.regs.x.toNat ∨ 65536 < v.regs.y.toNat + 512) :
    floppyRead f v = floppyReject f v
      (if f.state = .noMedia then .noMedia else if f.state = .busy then .busy else .badSector) := by
  rw [← floppyInBounds_eq_false_iff] at h
  unfold floppyRead notReadyError
  cases hst : f.state with
  | noMedia | busy => simp
  | ready | readyWriteProtected =>
    have hout : floppyInBounds v.regs.x v.regs.y = false := by simpa [hst] using h
    simp [hout]

/-- A read of ready media in bounds copies the sector to memory (R308, R312). -/
theorem floppyRead_done {f : Floppy} {v : View} (hst : f.state = .ready ∨ f.state = .readyWriteProtected)
    (hin : floppyInBounds v.regs.x v.regs.y = true) :
    floppyRead f v = (floppySeek f v.regs.x,
      { v.setB 1 with mem := sectorToMem (f.image.getD []) v.regs.x v.mem v.regs.y }, []) := by
  unfold floppyRead
  rcases hst with hst | hst <;> simp [hst, hin]

/-- A write is rejected for protected media first, then for media that is not ready, then for its bounds (R310). -/
theorem floppyWrite_rejected {f : Floppy} {v : View}
    (h : f.state ≠ .ready ∨ 1440 ≤ v.regs.x.toNat ∨ 65536 < v.regs.y.toNat + 512) :
    floppyWrite f v = floppyReject f v
      (if f.state = .readyWriteProtected then .writeProtected else if f.state = .noMedia then .noMedia
        else if f.state = .busy then .busy else .badSector) := by
  rw [← floppyInBounds_eq_false_iff] at h
  unfold floppyWrite notReadyError
  cases hst : f.state with
  | noMedia | busy | readyWriteProtected => simp
  | ready =>
    have hout : floppyInBounds v.regs.x v.regs.y = false := by simpa [hst] using h
    simp [hout]

/-- A write to ready media in bounds copies memory to the sector (R310, R312). -/
theorem floppyWrite_done {f : Floppy} {v : View} (hst : f.state = .ready) (hin : floppyInBounds v.regs.x v.regs.y = true) :
    floppyWrite f v =
      ({ floppySeek f v.regs.x with image := some (memToSector v.mem v.regs.y (f.image.getD []) v.regs.x) },
        v.setB 1, []) := by
  simp [floppyWrite, hst, hin]

/-- A write never changes memory (R310). -/
theorem floppyWrite_mem (f : Floppy) (v : View) : (floppyWrite f v).2.1.mem = v.mem := by
  rcases floppyWrite_cases f v with ⟨er, -, -, e⟩ | ⟨-, -, e⟩ <;> rw [e] <;> rfl

/-! ### Insert and eject -/

/-- A change of state raises the message, whatever the latch does (R305). -/
theorem floppySetStatus_of_state_ne {f : Floppy} {st : FloppyState} (h : st ≠ f.state) (er : FloppyError) :
    floppySetStatus f st er = ({ f with state := st, error := er }, if f.msg ≠ 0 then [f.msg] else []) := by
  simp [floppySetStatus, h]

section
variable {s : State} {n : Nat} {f : Floppy} (hf : s.devices[n]? = some (.floppy f))
include hf

/-- An image of the geometry goes into an empty controller (R304). -/
theorem hostInsert_of_empty {img : Image} (wp : Bool) (hst : f.state = .noMedia) (himg : Image.wf img) :
    hostInsert n img wp s =
      ((s.setDevices (s.devices.set n (.floppy { f with
        state := if wp then .readyWriteProtected else .ready, image := some img }))).enqueueAll
          (if f.msg ≠ 0 then [f.msg] else []), .done) := by
  have hnew : (if wp then FloppyState.readyWriteProtected else .ready) ≠ f.state := by
    rw [hst]
    cases wp <;> decide
  have hins := floppySetStatus_of_state_ne (f := { f with image := some img }) hnew f.error
  simp only [hostInsert, floppyAt_eq_some_iff.2 hf, floppyInsert, if_pos (And.intro hst himg), hins]

/-- A loaded controller takes no second image, and none an image outside the geometry (R304, log entry 14). -/
theorem hostInsert_of_refused {img : Image} (wp : Bool) (h : ¬(f.state = .noMedia ∧ Image.wf img)) :
    hostInsert n img wp s = (s, .refused) := by
  simp only [hostInsert, floppyAt_eq_some_iff.2 hf, floppyInsert, if_neg h]

/-- A loaded controller hands its image back (R304). -/
theorem hostEject_of_loaded (hst : f.state ≠ .noMedia) :
    hostEject n s =
      ((s.setDevices (s.devices.set n (.floppy { f with state := .noMedia, image := none }))).enqueueAll
        (if f.msg ≠ 0 then [f.msg] else []), .image f.image) := by
  have hej := floppySetStatus_of_state_ne (f := { f with image := none }) hst.symm f.error
  simp only [hostEject, floppyAt_eq_some_iff.2 hf, floppyEject, if_neg hst, hej]

theorem hostEject_of_empty (hst : f.state = .noMedia) : hostEject n s = (s, .refused) := by
  simp only [hostEject, floppyAt_eq_some_iff.2 hf, floppyEject, if_pos hst]

end

/-- Putting a device in place and enqueueing its messages touches the device list, the queue and the fatal bit only (R285, R304). -/
theorem setDevices_enqueueAll_frame (s : State) (ds : List Device) (msgs : List Word) :
    let t := (s.setDevices ds).enqueueAll msgs
    SameRegs s t ∧ SameMemory s t ∧ PointersOf s t ∧ SameInterruptControl s t ∧ t.sleepCycles = s.sleepCycles ∧
      t.status = s.status ∧ t.devices = ds ∧ Enqueued msgs s t :=
  ⟨fun r => by simp, fun n => by simp, by simp [PointersOf], by simp [SameInterruptControl], by simp, by simp, by simp,
    State.enqueueAll_congr (State.setDevices_queue s ds) (State.setDevices_onFire s ds) msgs⟩

end Sys2Proof.Machine
end

section
/-! SUPPORT. The statements about the floppy controller, each settled from the lemmas above. -/

namespace Sys2Proof.Machine

/-- Settles O39: the controller's answer to a sub-command that moves no sector, whose messages are none. -/
theorem hwiFloppyPollAndConfigure : Obligations.HwiFloppyPollAndConfigure := by
  intro a s f hdev h2 h3
  obtain ⟨t, hexec, hptr, hia, hien, hiaq, hstatus, hcost, hcall⟩ := exec_hwi_floppy hdev
  have hA : (afterSrc a s).view.regs.a = s.reg .a := afterSrc_view_get a s .a
  have hX : (afterSrc a s).view.regs.x = s.reg .x := afterSrc_view_get a s .x
  have ht := hcall.of_eq (floppyInterrupt_of_no_transfer f (by rwa [hA]) (by rwa [hA]))
  rw [hA, hX] at ht
  obtain ⟨hqueue, hfire⟩ := ht.enqueued
  refine ⟨t, hexec, fun n => ?_, hptr, hia, hien, hiaq, hqueue, hfire, hstatus, hcost, fun r => ?_, ht.devices⟩
  · rw [ht.readMem, ← afterSrc_readMem a s]
    split <;> rfl
  · rw [ht.reg]
    by_cases h0 : s.reg .a = 0
    · rw [if_pos h0, View.setC_get, setB_afterSrc_view_get]
      simp only [h0, and_true]
      cases r <;> rfl
    · rw [if_neg h0, afterSrc_view_get, if_neg fun ⟨_, h⟩ => h0 h, if_neg fun ⟨_, h⟩ => h0 h]

/-- Settles O40: the rejection and the copy of R308 are the two answers to A = 2, and the bounds of R309 tell them apart. -/
theorem hwiFloppyRead : Obligations.HwiFloppyRead := by
  intro a s f hdev h2
  obtain ⟨t, hexec, hptr, hia, hien, hiaq, hstatus, hcost, hcall⟩ := exec_hwi_floppy hdev
  have hX : (afterSrc a s).view.regs.x = s.reg .x := afterSrc_view_get a s .x
  have hY : (afterSrc a s).view.regs.y = s.reg .y := afterSrc_view_get a s .y
  rw [floppyInterrupt_of_read f ((afterSrc_view_get a s .a).trans h2)] at hcall
  refine ⟨t, hexec, hptr, hia, hien, hiaq, hstatus, hcost, ?_, fun hst hx hy => ?_⟩
  · rintro e rfl hwhy
    have ht := hcall.of_eq ((floppyRead_rejected (by rwa [hX, hY])).trans (floppyReject_eq ..))
    exact ⟨fun r => (ht.reg r).trans (setB_afterSrc_view_get a s 0 r),
      fun n => (ht.readMem n).trans (afterSrc_readMem a s n), ht.devices, ht.enqueued⟩
  · have hin : floppyInBounds (s.reg .x) (s.reg .y) = true := (floppyInBounds_iff _ _).2 ⟨hx, hy⟩
    have ht := hcall.of_eq (floppyRead_done hst (by rwa [hX, hY]))
    rw [hX, hY, State.view_mem, afterSrc_mem] at ht
    obtain ⟨hqueue, hfire⟩ := ht.enqueued
    refine ⟨fun r => (ht.reg r).trans (setB_afterSrc_view_get a s 1 r), fun n => ?_, ht.devices, hqueue, hfire⟩
    rw [ht.readMem, read_sectorToMem]
    rfl

/-- Settles O41: the rejection and the copy of R310 are the two answers to A = 3, and neither writes memory. -/
theorem hwiFloppyWrite : Obligations.HwiFloppyWrite := by
  intro a s f hdev h3
  obtain ⟨t, hexec, hptr, hia, hien, hiaq, hstatus, hcost, hcall⟩ := exec_hwi_floppy hdev
  have hX : (afterSrc a s).view.regs.x = s.reg .x := afterSrc_view_get a s .x
  have hY : (afterSrc a s).view.regs.y = s.reg .y := afterSrc_view_get a s .y
  rw [floppyInterrupt_of_write f ((afterSrc_view_get a s .a).trans h3)] at hcall
  have hmem : SameMemory s t := by
    intro n
    rw [hcall.readMem, floppyWrite_mem]
    exact afterSrc_readMem a s n
  refine ⟨t, hexec, hptr, hia, hien, hiaq, hstatus, hcost, hmem, ?_, fun hst hx hy => ?_⟩
  · rintro e rfl hwhy
    have ht := hcall.of_eq ((floppyWrite_rejected (by rwa [hX, hY])).trans (floppyReject_eq ..))
    exact ⟨fun r => (ht.reg r).trans (setB_afterSrc_view_get a s 0 r), ht.devices, ht.enqueued⟩
  · have hin : floppyInBounds (s.reg .x) (s.reg .y) = true := (floppyInBounds_iff _ _).2 ⟨hx, hy⟩
    have ht := hcall.of_eq (floppyWrite_done hst (by rwa [hX, hY]))
    rw [hX, hY, State.view_mem, afterSrc_mem] at ht
    obtain ⟨hqueue, hfire⟩ := ht.enqueued
    exact ⟨fun r => (ht.reg r).trans (setB_afterSrc_view_get a s 1 r), hqueue, hfire, _, read_memToSector s hy _ _,
      ht.devices⟩

/-- Settles O51: each action either refuses or puts the changed controller in place and enqueues its message. -/
theorem insertAndEject : Obligations.InsertAndEject := by
  intro s n f hf
  refine ⟨fun img wp hst himg => ?_, fun img wp hst => hostInsert_of_refused hf wp fun ⟨h, _⟩ => hst h,
    fun img wp _ himg => hostInsert_of_refused hf wp fun ⟨_, h⟩ => himg h, fun hst => ?_, hostEject_of_empty hf⟩
  · rw [show hostOp (.insert n img wp) s = _ from hostInsert_of_empty hf wp hst himg]
    exact ⟨rfl, setDevices_enqueueAll_frame ..⟩
  · rw [show hostOp (.eject n) s = _ from hostEject_of_loaded hf hst]
    exact ⟨rfl, setDevices_enqueueAll_frame ..⟩

end Sys2Proof.Machine
end

section
/-! SUPPORT. The clock (spec `48_clock.md`) and the display (spec `49_display.md`), called through HWI: devices that answer in the
general registers only and return no message. -/

namespace Sys2Proof.Machine

/-- Every sub-command of the clock at once: what becomes of the clock and of register C (R333 to R336). -/
theorem clockInterrupt_eq (c : Clock) (v : View) :
    clockInterrupt c v =
      (if v.regs.a = 0 then { c with period := v.regs.x, cycles := 0, ticks := 0 }
        else if v.regs.a = 1 then { c with ticks := 0 }
        else if v.regs.a = 2 then { c with msg := v.regs.x }
        else c,
        { v with regs := if v.regs.a = 1 then v.regs.set .c c.ticks else v.regs }, []) := by
  unfold clockInterrupt
  split
  case h_1 h =>
    have hA : v.regs.a = 0 := BitVec.eq_of_toNat_eq h
    simp [hA]
  case h_2 h =>
    have hA : v.regs.a = 1 := BitVec.eq_of_toNat_eq h
    simp [hA, View.setC]
  case h_3 h =>
    have hA : v.regs.a = 2 := BitVec.eq_of_toNat_eq h
    simp [hA]
  case h_4 h0 h1 h2 =>
    rw [if_neg fun hA => h0 (congrArg BitVec.toNat hA), if_neg fun hA => h1 (congrArg BitVec.toNat hA),
      if_neg fun hA => h2 (congrArg BitVec.toNat hA), if_neg fun hA => h1 (congrArg BitVec.toNat hA)]

/-- Both sub-commands of the display at once: the poll, and none (R352, R353). -/
theorem displayInterrupt_eq (d : Display) (v : View) :
    displayInterrupt d v =
      (if v.regs.a = 0 then { d with error := .none } else d,
        { v with regs :=
            if v.regs.a = 0 then (v.regs.set .b (displayStateCode d.state)).set .c (displayErrorCode d.error)
            else v.regs }, []) := by
  unfold displayInterrupt
  split
  case h_1 h =>
    have hA : v.regs.a = 0 := BitVec.eq_of_toNat_eq h
    simp [hA, View.setB, View.setC]
  case h_2 h =>
    rw [if_neg fun hA => h (congrArg BitVec.toNat hA), if_neg fun hA => h (congrArg BitVec.toNat hA)]

/-- HWI on a device that asks for no extra cycles, writes only general registers and returns no message: beside them and the device
nothing changes but what resolving the operand moves (R260, R283, R285). -/
theorem exec_hwi_of_writes_regs_only {a : SrcOperand} {s : State} {d d' : Device} {rs : Regs}
    (hdev : s.devices[(argVal a s).toNat]? = some d) (hextra : deviceExtraCycles d = 0)
    (hcall : deviceInterrupt d (afterSrc a s).view = (d', { (afterSrc a s).view with regs := rs }, [])) :
    ∃ t, exec (.hwi a) s = .next t ∧ SameMemory s t ∧ PointersOf (afterSrc a s) t ∧ t.ia = s.ia ∧ t.ien = s.ien ∧
      t.iaq = s.iaq ∧ t.queue = s.queue ∧ t.onFire = s.onFire ∧ t.status = s.status ∧ t.sleepCycles = 3 + costA a ∧
      (∀ r, t.reg r = rs.get r) ∧ t.devices = s.devices.set (argVal a s).toNat d' := by
  obtain ⟨t, hexec, ht, hcost⟩ := exec_hwi_answered hdev
  rw [hcall] at ht
  rw [hextra] at hcost
  obtain ⟨hptr, hia⟩ := ht.pointers_ia rfl rfl rfl rfl
  obtain ⟨hqueue, hfire⟩ := ht.enqueued
  exact ⟨t, hexec, fun n => (ht.readMem n).trans (afterSrc_readMem a s n), hptr, hia, ht.ien, ht.iaq, hqueue, hfire,
    ht.status, hcost, ht.reg, ht.devices⟩

end Sys2Proof.Machine
end

section
/-! SUPPORT. The statements about the clock and the display, each settled from the lemmas above. -/

namespace Sys2Proof.Machine

/-- Settles O38: the clock's one answer, in which only C can differ, and only after A = 1. -/
theorem hwiOnClock : Obligations.HwiOnClock := by
  intro a s c hdev
  have hA : (afterSrc a s).view.regs.a = s.reg .a := afterSrc_view_get a s .a
  have hX : (afterSrc a s).view.regs.x = s.reg .x := afterSrc_view_get a s .x
  have hcall := clockInterrupt_eq c (afterSrc a s).view
  rw [hA, hX] at hcall
  have hget (r : Reg) :
      (if s.reg .a = 1 then (afterSrc a s).view.regs.set .c c.ticks else (afterSrc a s).view.regs).get r =
        if r = .c ∧ s.reg .a = 1 then c.ticks else s.reg r := by
    by_cases h1 : s.reg .a = 1
    · simp only [h1, if_true, and_true, Regs.get_set, afterSrc_view_get]
    · rw [if_neg h1, afterSrc_view_get, if_neg fun ⟨_, h⟩ => h1 h]
  obtain ⟨t, ht⟩ := exec_hwi_of_writes_regs_only hdev rfl (by rw [deviceInterrupt, hcall])
  simp only [hget] at ht
  exact ⟨t, ht⟩

/-- Settles O42: the display's one answer, in which B and C can differ, and only after the poll. -/
theorem hwiOnDisplay : Obligations.HwiOnDisplay := by
  intro a s d hdev
  have hA : (afterSrc a s).view.regs.a = s.reg .a := afterSrc_view_get a s .a
  have hcall := displayInterrupt_eq d (afterSrc a s).view
  rw [hA] at hcall
  have hget (r : Reg) :
      (if s.reg .a = 0 then
          ((afterSrc a s).view.regs.set .b (displayStateCode d.state)).set .c (displayErrorCode d.error)
        else (afterSrc a s).view.regs).get r =
        if r = .b ∧ s.reg .a = 0 then displayStateCode d.state
        else if r = .c ∧ s.reg .a = 0 then displayErrorCode d.error
        else s.reg r := by
    by_cases h0 : s.reg .a = 0
    · simp only [h0, if_true, and_true, Regs.get_set, afterSrc_view_get]
      cases r <;> rfl
    · rw [if_neg h0, afterSrc_view_get, if_neg fun ⟨_, h⟩ => h0 h, if_neg fun ⟨_, h⟩ => h0 h]
  obtain ⟨t, ht⟩ := exec_hwi_of_writes_regs_only hdev rfl (by rw [deviceInterrupt, hcall])
  simp only [hget] at ht
  exact ⟨t, ht⟩

end Sys2Proof.Machine
end

section
/-! SUPPORT. Enqueueing on fire, and when sub-step 4 delivers (spec `60_exceptions.md` R363 to R365). -/

namespace Sys2Proof.Machine

/-- A CPU on fire takes no message (R363). -/
theorem State.enqueue_of_onFire {s : State} (h : s.onFire = true) (m : Word) : s.enqueue m = s :=
  if_pos h

/-- Taking an interrupt sets the queueing flag, which delivery requires to be clear, so a delivery always shows (R364, R365). -/
theorem State.deliver_ne_self_iff (s : State) :
    s.deliver ≠ s ↔ s.onFire = false ∧ s.ien = true ∧ s.ia ≠ 0 ∧ s.iaq = false ∧ s.queue ≠ [] := by
  constructor
  · intro hdelivers
    rcases s.deliver_cases with hnone | ⟨m, rest, hqueue, hfire, hien, hia, hiaq, -⟩
    · exact absurd hnone hdelivers
    · exact ⟨hfire, hien, hia, hiaq, hqueue ▸ List.cons_ne_nil m rest⟩
  · rintro ⟨hfire, hien, hia, hiaq, hne⟩ hsame
    obtain ⟨m, rest, hqueue⟩ := List.exists_cons_of_ne_nil hne
    have hset : s.deliver.iaq = true := by
      rw [State.deliver_eq_takeInterrupt hqueue hfire hien hia hiaq, State.takeInterrupt_iaq]
    rw [hsame, hiaq] at hset
    cases hset

/-- Where sub-step 4 changes anything it takes the interrupt of the head message (R365). -/
theorem State.deliver_of_ne_self {s : State} {m : Word} {rest : List Word} (hqueue : s.queue = m :: rest)
    (hdelivers : s.deliver ≠ s) : s.deliver = s.takeInterrupt m rest := by
  obtain ⟨hfire, hien, hia, hiaq, -⟩ := s.deliver_ne_self_iff.1 hdelivers
  exact State.deliver_eq_takeInterrupt hqueue hfire hien hia hiaq

end Sys2Proof.Machine
end

section
/-! SUPPORT. The statements about delivery and `Enqueue`, each settled from the lemmas above. -/

namespace Sys2Proof.Machine

/-- Settles O45: when delivery shows, and the fields of the state it leaves. -/
theorem deliveryConditionAndAction : Obligations.DeliveryConditionAndAction := by
  intro s
  refine ⟨s.deliver_ne_self_iff, fun m rest hqueue hdelivers => ?_⟩
  rw [State.deliver_of_ne_self hqueue hdelivers]
  exact ⟨s.takeInterrupt_reg m rest, rfl, s.takeInterrupt_sp m rest, rfl, rfl, rfl, rfl, rfl, rfl, rfl, rfl, rfl,
    s.takeInterrupt_readMem m rest⟩

/-- Settles O44: the frame of `Enqueue` in every case, then its three cases one by one. -/
theorem enqueueRule : Obligations.EnqueueRule := by
  intro s m
  refine ⟨s.enqueue_reg m, s.enqueue_readMem m, by simp [PointersOf], by simp [SameControl], s.enqueue_sleepCycles m,
    fun hfire => ?_, fun hfire hfull => ?_, fun hfire hroom => ?_⟩
  · rw [State.enqueue_of_onFire hfire]
    exact ⟨rfl, hfire⟩
  · rw [State.enqueue_of_full hfire hfull]
    exact ⟨rfl, rfl⟩
  · rw [State.enqueue_of_room hfire hroom]
    exact ⟨rfl, hfire⟩

end Sys2Proof.Machine
end
